-- ==== Sys2Proof/Word.lean ====
section
/-! DEFINITION. The widths of the block's values. Every value of the spec is an unsigned integer of a stated
width with bit 0 the least significant (00_scope.md R8); there is one word length, 32 bits (30_encoding.md R74). -/

namespace Sys2Proof

/-- A 32-bit codeword, received, stored or corrected; also the accumulator's width (R23, R60). -/
abbrev Word := BitVec 32

/-- The 20-bit payload of a data word, bits 30..11 (R63). -/
abbrev Payload := BitVec 20

/-- A 7-bit text character code (R28). -/
abbrev CharCode := BitVec 7

/-- A 4-bit numeric digit code (R29). -/
abbrev DigitCode := BitVec 4

/-- The 21-bit full pager address: the 18-bit field followed by 3 frame bits (R26). -/
abbrev PagerAddress := BitVec 21

/-- The 2-bit function code (R27). -/
abbrev FunctionCode := BitVec 2

/-- A symbol as the slicer delivers it, before inversion, and also a stored bit, after it. The spec types a symbol as
a bit (R46). -/
abbrev Symbol := Bool

end Sys2Proof
end

