-- ==== Sys2Proof/Config.lean ====
section
/-! DEFINITION. What an implementation fixes: the constants of 00_scope.md R6, the construction parameters of R7 with
their defaults, and the two policies the source leaves to the implementer and the spec fixes (93_implementation_defined.md
I3, I4). The spec leaves no value open that a step could read (R40, R168), so there is no free value here. -/

namespace Sys2Proof

namespace Config

/-- WORD_BITS (R6): the width of a codeword and of the accumulator, and the symbols of one word read. -/
def wordBits : Nat := 32

/-- BCH_N (R6). -/
def bchN : Nat := 31

/-- BCH_K (R6): the message length, and the reduction's iteration count. -/
def bchK : Nat := 21

/-- GPOLY (R6, R85): g(x) = x^10 + x^9 + x^8 + x^6 + x^5 + x^3 + 1. -/
def gpoly : Word := 0x769

/-- SYNC_WORD (R6, R65). -/
def syncWord : Word := 0x7CD215D8

/-- IDLE_WORD (R6, R66). -/
def idleWord : Word := 0x7A89C197

/-- SYNC_TOLERANCE (R6): the largest Hamming distance accepted as a SYNC match. -/
def syncTolerance : Nat := 2

/-- BATCH_WORDS (R6): the words read in `Synched` per batch. -/
def batchWords : Nat := 16

/-- CHAR_BITS (R6). -/
def charBits : Nat := 7

/-- NUMERIC_TABLE (R6, R139): the character at index n renders the digit code n. -/
def numericTable : List Char :=
  ['0', '1', '2', '3', '4', '5', '6', '7', '8', '9', '*', 'U', ' ', '-', ')', '(']

/-- The least legal PREAMBLE_LEN (R7, R33). -/
def minPreambleLen : Nat := 2

/-- The largest legal PREAMBLE_LEN (R7, R33). -/
def maxPreambleLen : Nat := 32

end Config

/-- The control state of the synchronization automaton, the program-counter analogue: a closed variant of five names
(R21). Its 3-bit codes are in Decode.lean (R73); codes 5 to 7 have no constructor. -/
inductive ControlState where
  | searchPreambleStart
  | searchPreambleEnd
  | sync
  | searchSync
  | synched
  deriving DecidableEq, Repr

/-- SYMBOL_RATE: "any positive number" (R7). The value stands for (numPred + 1) / (denPred + 1), so only positive
rates can be written. No rule reads it (R35). DESIGN CHOICE, log entry 5. -/
structure SymbolRate where
  numPred : Nat
  denPred : Nat
  deriving DecidableEq, Repr

/-- The five construction-time parameters, the operands of RESET (R7, R170). INITIAL_STATE ranges over all five control
states and PREAMBLE_LEN over all naturals here; RESET refuses the illegal ones. -/
structure Construction where
  initialState : ControlState
  preambleLen : Nat
  channel : String
  symbolRate : SymbolRate
  debugInit : Bool
  deriving DecidableEq, Repr

namespace Config

/-- The construction parameters at their defaults. INITIAL_STATE, PREAMBLE_LEN and DEBUG_INIT are R7's; CHANNEL is
R78's `ch0`. R7 gives SYMBOL_RATE no default: the rate 1 is a DESIGN CHOICE, log entry 2. -/
def defaults : Construction where
  initialState := .searchSync
  preambleLen := 32
  channel := "ch0"
  symbolRate := ⟨0, 0⟩
  debugInit := false

end Config

end Sys2Proof
end

