-- ==== Sys2Proof/Machine/Codec.lean ====
section
/-! DEFINITION. The BCH codec (40_bch_codec.md): pure functions of a 32-bit word, without state (R94). All arithmetic is
over GF(2) (R96). -/

namespace Sys2Proof.Codec

/-- The number of 1 bits of w among bits n-1..0. -/
def popcountBelow : Nat → Word → Nat
  | 0, _ => 0
  | n + 1, w => (if w.getLsbD n then 1 else 0) + popcountBelow n w

/-- POPCOUNT (R86): a value 0..32. -/
def popcount (w : Word) : Nat := popcountBelow 32 w

/-- ODD_PARITY (R87): true exactly when w has an odd number of 1 bits. -/
def oddParity (w : Word) : Bool := popcount w % 2 == 1

/-- HAMMING (R88). -/
def hamming (a b : Word) : Nat := popcount (a ^^^ b)

/-- The last n iterations of R89's loop. With n + 1 left, j = 20 - n: bit 30 - j = 10 + n is tested and g is added
shifted by 20 - j = n. -/
def reduce : Nat → Word → Word
  | 0, d => d
  | n + 1, d => reduce n (if d.getLsbD (10 + n) then d ^^^ (Config.gpoly <<< n) else d)

/-- SYNDROME (R89): the remainder of w[31:1] modulo g in bits 9..0, and in bit 10 the odd parity of all 32 bits. -/
def syndrome (w : Word) : Word :=
  let d := reduce Config.bchK (w >>> 1)
  if oddParity w then d ||| (1#32 <<< (Config.bchN - Config.bchK)) else d

/-- VALID (R95). -/
def valid (w : Word) : Bool := syndrome w == 0

/-- The 32 single-bit flips of w, bit 0 upward (R91). -/
def singleFlips (w : Word) : List Word :=
  (List.range 32).map fun a => w ^^^ (1#32 <<< a)

/-- The 496 two-bit flips of w, pairs (a, b) with a < b in lexicographic order (R91, D13). -/
def doubleFlips (w : Word) : List Word :=
  (List.range 32).flatMap fun a =>
    (List.range' (a + 1) (31 - a)).map fun b => w ^^^ (1#32 <<< a) ^^^ (1#32 <<< b)

/-- CORRECT (R91): w if it is valid, else the first valid single flip, else the first valid double flip, else w. -/
def correct (w : Word) : Word :=
  if valid w then w
  else match (singleFlips w ++ doubleFlips w).find? valid with
    | some c => c
    | none => w

/-- UNCORRECTABLE (R95). -/
def uncorrectable (w : Word) : Bool := syndrome (correct w) != 0

end Sys2Proof.Codec
end

