-- ==== Sys2Proof/Syntax.lean ====
section
/-! DEFINITION. The operations of the block, one constructor per row of spec/opcode_table.json, and the encoded form in
which an operation is requested. The block has no instruction set (R2): its operations are the four host operations
(R100), the five step rules that the control state selects (R102), the five word classes that a corrected word selects
(R72), and the codec and assembler operations that the steps call. -/

namespace Sys2Proof

/-- One operation of the opcode table. -/
inductive Instr where
  /-- RESET (R170): construction with a configuration. -/
  | reset (cfg : Construction)
  /-- WORK (R101): steps over the presented symbols until one needs more input. -/
  | work (buf : List Symbol)
  /-- SET_DEBUG (R103). -/
  | setDebug (v : Bool)
  /-- STATUS (R104). -/
  | status
  /-- STEP_SPS (R108): the step of `SearchPreambleStart`. -/
  | stepSps
  /-- STEP_SPE (R109): the step of `SearchPreambleEnd`. -/
  | stepSpe
  /-- STEP_SYNC (R113): the step of `Sync`. -/
  | stepSync
  /-- STEP_SEARCHSYNC (R110): the step of `SearchSync`. -/
  | stepSearchSync
  /-- STEP_SYNCHED (R114): the step of `Synched`. -/
  | stepSynched
  /-- Word class UNCORRECTABLE (R114, R154); w is the word as received. -/
  | uncorrectable (w : Word)
  /-- Word class SYNC_IN_BATCH (R135). -/
  | syncInBatch
  /-- Word class IDLE (R129). -/
  | idle
  /-- Word class DATA (R130); c is the corrected word. -/
  | data (c : Word)
  /-- Word class ADDRESS (R134); c is the corrected word. -/
  | address (c : Word)
  /-- SYNDROME (R89). -/
  | syndrome (w : Word)
  /-- CORRECT (R91). -/
  | correct (w : Word)
  /-- POPCOUNT (R86). -/
  | popcount (w : Word)
  /-- ODD_PARITY (R87). -/
  | oddParity (w : Word)
  /-- HAMMING (R88). -/
  | hamming (a b : Word)
  /-- SHIFT_IN (R106); b is a stored bit. -/
  | shiftIn (b : Bool)
  /-- PREAMBLE_MATCH (R107) on the accumulator value a. -/
  | preambleMatch (a : Word)
  /-- TEXT_FEED (R131). -/
  | textFeed (p : Payload)
  /-- NUMERIC_FEED (R133). -/
  | numericFeed (p : Payload)
  /-- EMIT (R127). -/
  | emit (eom : Bool)
  deriving DecidableEq, Repr

/-- Where an operation's bits are read. The table's encodings overlap (code 0 is both RESET and STEP_SPS, and a 32-bit
pattern is both a word class and a codec operand), because what selects among them is the caller, not a bit: host
operations, the control state, the corrected word, and one place for each operation to which the spec gives no code
("Encoding: none (internal)"). DESIGN CHOICE, log entry 3. -/
inductive OpSpace where
  | hostOp
  | stateStep
  | wordClass
  | syndrome
  | correct
  | popcount
  | oddParity
  | hamming
  | shiftIn
  | preambleMatch
  | textFeed
  | numericFeed
  | emit
  deriving DecidableEq, Repr

/-- RESET's operand as the host hands it over: INITIAL_STATE by its 3-bit code (R32, R73). -/
structure ConfigOperand where
  initialCode : BitVec 3
  preambleLen : Nat
  channel : String
  symbolRate : SymbolRate
  debugInit : Bool
  deriving DecidableEq, Repr

/-- The operands to which the table gives no bit positions. Symbols and the debug bit arrive as numbers, so that a value
other than 0 and 1 can be refused at the host interface (R46). -/
inductive Operand where
  | absent
  | config (c : ConfigOperand)
  | symbols (buf : List Nat)
  | bit (v : Nat)
  deriving DecidableEq, Repr

/-- An encoded operation: its bits, numbered as the table numbers them, where they are read, and the operand that has
no bit positions. -/
structure Request where
  space : OpSpace
  bits : Nat
  operand : Operand
  deriving DecidableEq, Repr

/-- Why a request is no operation. -/
inductive DecodeError where
  /-- A host operation code other than 0 to 3 (R76). -/
  | noSuchHostOp (bits : Nat)
  /-- A state code other than 0 to 4 (R73): 5, 6 and 7 are refused (I11). -/
  | noSuchStateCode (bits : Nat)
  /-- More bits than the row has. -/
  | bitsTooWide (bits : Nat)
  /-- An operand that the operation does not take. -/
  | operandMismatch
  /-- A symbol other than 0 or 1 (R46, D34). -/
  | symbolNotBit (v : Nat)
  /-- A SET_DEBUG operand other than 0 or 1 (R103). -/
  | debugNotBit (v : Nat)
  deriving DecidableEq, Repr

end Sys2Proof
end

