-- ==== Sys2Proof/WellFormed.lean ====
section
/-! DEFINITION. Which terms of Instr are operations. Operand widths are in the types. What is left is that a word-class
operation carries a word of its class (R72 and the conditions of spec/opcode_table.json). RESET's illegal
configurations are well formed: the operation itself refuses them (R170). -/

namespace Sys2Proof

/-- Well-formedness of an operation. -/
def wellFormed : Instr → Bool
  | .reset _ => true
  | .work _ => true
  | .setDebug _ => true
  | .status => true
  | .stepSps => true
  | .stepSpe => true
  | .stepSync => true
  | .stepSearchSync => true
  | .stepSynched => true
  | .uncorrectable w => Codec.uncorrectable w
  | .syncInBatch => true
  | .idle => true
  | .data c => !Codec.uncorrectable c && c.getLsbD 31
  | .address c =>
    !Codec.uncorrectable c && !c.getLsbD 31 && c != Config.syncWord && c != Config.idleWord
  | .syndrome _ => true
  | .correct _ => true
  | .popcount _ => true
  | .oddParity _ => true
  | .hamming _ _ => true
  | .shiftIn _ => true
  | .preambleMatch _ => true
  | .textFeed _ => true
  | .numericFeed _ => true
  | .emit _ => true

end Sys2Proof
end

