-- ==== Sys2Proof/Decode.lean ====
section
/-! DEFINITION. Decoding a request, total and rejecting by name, then the encoder, the table-word reader of the host,
and the test-bench word encoder ENC. Encodings: 30_encoding.md R60 to R80 and spec/opcode_table.json. -/

namespace Sys2Proof

/-- The 3-bit code of a control state (R73). -/
def stateCode : ControlState → BitVec 3
  | .searchPreambleStart => 0
  | .searchPreambleEnd => 1
  | .sync => 2
  | .searchSync => 3
  | .synched => 4

/-- The control state of a 3-bit code; codes 5, 6 and 7 are not used (R73). -/
def stateOfCode (code : BitVec 3) : Except DecodeError ControlState :=
  match code.toNat with
  | 0 => .ok .searchPreambleStart
  | 1 => .ok .searchPreambleEnd
  | 2 => .ok .sync
  | 3 => .ok .searchSync
  | 4 => .ok .synched
  | n => .error (.noSuchStateCode n)

/-- The step operation that a control state selects (R102). -/
def stepOf : ControlState → Instr
  | .searchPreambleStart => .stepSps
  | .searchPreambleEnd => .stepSpe
  | .sync => .stepSync
  | .searchSync => .stepSearchSync
  | .synched => .stepSynched

/-- A field of n bits; more bits than the row has are rejected. -/
def narrow (n bits : Nat) : Except DecodeError (BitVec n) :=
  if bits < 2 ^ n then .ok (BitVec.ofNat n bits) else .error (.bitsTooWide bits)

/-- The presented symbols as bits; any other value is refused (R46). -/
def decodeSymbols : List Nat → Except DecodeError (List Symbol)
  | [] => .ok []
  | v :: rest =>
    match v with
    | 0 => (decodeSymbols rest).map (false :: ·)
    | 1 => (decodeSymbols rest).map (true :: ·)
    | _ => .error (.symbolNotBit v)

/-- RESET's operand (R170); an initial state is given by its code (R32). -/
def decodeConfig (c : ConfigOperand) : Except DecodeError Construction :=
  (stateOfCode c.initialCode).map fun st =>
    { initialState := st, preambleLen := c.preambleLen, channel := c.channel,
      symbolRate := c.symbolRate, debugInit := c.debugInit }

/-- RESET's operand; left out, it is the defaults (R7, R78). -/
def decodeReset : Operand → Except DecodeError Instr
  | .absent => .ok (.reset Config.defaults)
  | .config c => (decodeConfig c).map .reset
  | .symbols _ => .error .operandMismatch
  | .bit _ => .error .operandMismatch

/-- WORK's operand; left out, it is the empty sequence (R101). -/
def decodeWork : Operand → Except DecodeError Instr
  | .absent => .ok (.work [])
  | .config _ => .error .operandMismatch
  | .symbols buf => (decodeSymbols buf).map .work
  | .bit _ => .error .operandMismatch

/-- SET_DEBUG's operand, one bit (R103); left out, it is 0. -/
def decodeSetDebug : Operand → Except DecodeError Instr
  | .absent => .ok (.setDebug false)
  | .config _ => .error .operandMismatch
  | .symbols _ => .error .operandMismatch
  | .bit v =>
    match v with
    | 0 => .ok (.setDebug false)
    | 1 => .ok (.setDebug true)
    | _ => .error (.debugNotBit v)

/-- An operation without an operand outside its bits. -/
def decodePlain (op : Operand) (r : Except DecodeError Instr) : Except DecodeError Instr :=
  match op with
  | .absent => r
  | .config _ => .error .operandMismatch
  | .symbols _ => .error .operandMismatch
  | .bit _ => .error .operandMismatch

/-- Host operation codes (R76): 0 RESET, 1 WORK, 2 SET_DEBUG, 3 STATUS. -/
def decodeHostOp (bits : Nat) (op : Operand) : Except DecodeError Instr :=
  match bits with
  | 0 => decodeReset op
  | 1 => decodeWork op
  | 2 => decodeSetDebug op
  | 3 => decodePlain op (.ok .status)
  | n => .error (.noSuchHostOp n)

/-- The step rule whose state code the bits are (R73, R102). -/
def decodeStateStep (bits : Nat) : Except DecodeError Instr :=
  (narrow 3 bits).bind fun code => (stateOfCode code).map stepOf

/-- The classification map (R72) on a word that CORRECT gave, in the table's order: a word with no valid word within
distance 2 is left as it is by CORRECT and is UNCORRECTABLE; then SYNC, IDLE, and the flag bit 31. On a word that
CORRECT cannot give (not valid, yet correctable) the flag bit decides: log entry 4, DESIGN CHOICE. -/
def classifyCorrected (c : Word) : Instr :=
  if Codec.uncorrectable c then .uncorrectable c
  else if c = Config.syncWord then .syncInBatch
  else if c = Config.idleWord then .idle
  else if c.getLsbD 31 then .data c
  else .address c

/-- HAMMING's two operands, a in bits 63..32 and b in bits 31..0 (spec/opcode_table.json). -/
def decodeHamming (v : BitVec 64) : Instr :=
  .hamming (v.extractLsb' 32 32) (v.extractLsb' 0 32)

/-- A one-bit operand. -/
def bitOf (v : BitVec 1) : Bool := v.getLsbD 0

/-- The decoder. -/
def decode (r : Request) : Except DecodeError Instr :=
  match r.space with
  | .hostOp => decodeHostOp r.bits r.operand
  | .stateStep => decodePlain r.operand (decodeStateStep r.bits)
  | .wordClass => decodePlain r.operand ((narrow 32 r.bits).map classifyCorrected)
  | .syndrome => decodePlain r.operand ((narrow 32 r.bits).map .syndrome)
  | .correct => decodePlain r.operand ((narrow 32 r.bits).map .correct)
  | .popcount => decodePlain r.operand ((narrow 32 r.bits).map .popcount)
  | .oddParity => decodePlain r.operand ((narrow 32 r.bits).map .oddParity)
  | .hamming => decodePlain r.operand ((narrow 64 r.bits).map decodeHamming)
  | .shiftIn => decodePlain r.operand ((narrow 1 r.bits).map fun v => .shiftIn (bitOf v))
  | .preambleMatch => decodePlain r.operand ((narrow 32 r.bits).map .preambleMatch)
  | .textFeed => decodePlain r.operand ((narrow 20 r.bits).map .textFeed)
  | .numericFeed => decodePlain r.operand ((narrow 20 r.bits).map .numericFeed)
  | .emit => decodePlain r.operand ((narrow 1 r.bits).map fun v => .emit (bitOf v))

/-! ## The encoder -/

/-- RESET's operand. -/
def encodeConfig (c : Construction) : ConfigOperand where
  initialCode := stateCode c.initialState
  preambleLen := c.preambleLen
  channel := c.channel
  symbolRate := c.symbolRate
  debugInit := c.debugInit

/-- The request that stands for an operation. -/
def encode : Instr → Request
  | .reset c => ⟨.hostOp, 0, .config (encodeConfig c)⟩
  | .work buf => ⟨.hostOp, 1, .symbols (buf.map Bool.toNat)⟩
  | .setDebug v => ⟨.hostOp, 2, .bit v.toNat⟩
  | .status => ⟨.hostOp, 3, .absent⟩
  | .stepSps => ⟨.stateStep, (stateCode .searchPreambleStart).toNat, .absent⟩
  | .stepSpe => ⟨.stateStep, (stateCode .searchPreambleEnd).toNat, .absent⟩
  | .stepSync => ⟨.stateStep, (stateCode .sync).toNat, .absent⟩
  | .stepSearchSync => ⟨.stateStep, (stateCode .searchSync).toNat, .absent⟩
  | .stepSynched => ⟨.stateStep, (stateCode .synched).toNat, .absent⟩
  | .uncorrectable w => ⟨.wordClass, w.toNat, .absent⟩
  | .syncInBatch => ⟨.wordClass, Config.syncWord.toNat, .absent⟩
  | .idle => ⟨.wordClass, Config.idleWord.toNat, .absent⟩
  | .data c => ⟨.wordClass, c.toNat, .absent⟩
  | .address c => ⟨.wordClass, c.toNat, .absent⟩
  | .syndrome w => ⟨.syndrome, w.toNat, .absent⟩
  | .correct w => ⟨.correct, w.toNat, .absent⟩
  | .popcount w => ⟨.popcount, w.toNat, .absent⟩
  | .oddParity w => ⟨.oddParity, w.toNat, .absent⟩
  | .hamming a b => ⟨.hamming, (a ++ b : BitVec 64).toNat, .absent⟩
  | .shiftIn b => ⟨.shiftIn, b.toNat, .absent⟩
  | .preambleMatch a => ⟨.preambleMatch, a.toNat, .absent⟩
  | .textFeed p => ⟨.textFeed, p.toNat, .absent⟩
  | .numericFeed p => ⟨.numericFeed, p.toNat, .absent⟩
  | .emit eom => ⟨.emit, eom.toNat, .absent⟩

/-! ## The opcode table's words -/

/-- The request that a table word stands for. A word says nothing of where it is read, and rows of one width overlap, so
one reading is fixed for each width: one byte is a host operation if its value is 0 to 3, else a state code; three bytes
are TEXT_FEED's payload; four are a word class; more are HAMMING's operands. DESIGN CHOICE, log entry 3. -/
def tableRequest (nbits w : Nat) : Request :=
  if nbits ≤ 8 then
    if w < 4 then ⟨.hostOp, w, .absent⟩ else ⟨.stateStep, w, .absent⟩
  else if nbits ≤ 24 then ⟨.textFeed, w, .absent⟩
  else if nbits ≤ 32 then ⟨.wordClass, w, .absent⟩
  else ⟨.hamming, w, .absent⟩

/-- The operation the decoder reads from a table word. -/
def decodeTableWord (nbits w : Nat) : Option Instr :=
  match decode (tableRequest nbits w) with
  | .ok i => some i
  | .error _ => none

/-! ## The test bench's word encoder -/

/-- ENC (R80): the valid word of 21 message bits. Test bench only; the block never runs it. -/
def enc (d : BitVec 21) : Word :=
  let v : Word := d.setWidth 32 <<< 10
  let w := (v ||| Codec.reduce Config.bchK v) <<< 1
  w ||| BitVec.ofNat 32 (Codec.popcount w % 2)

/-- The message bits of an address word: flag 0, addr18, func (R62, R79). -/
def addressBits (addr18 : BitVec 18) (func : FunctionCode) : BitVec 21 :=
  (addr18.setWidth 21 <<< 2) ||| func.setWidth 21

/-- The message bits of a data word: flag 1, payload (R63, R79). -/
def dataBits (p : Payload) : BitVec 21 :=
  (1#21 <<< 20) ||| p.setWidth 21

end Sys2Proof
end

