-- ==== Sys2Proof/Machine/State.lean ====
section
/-! DEFINITION. The state of one block instance (10_state.md R20 to R40), what stands beside it in this model (the
host's pending actions, an operation placed for running by itself, the presented symbols, what the last operation handed back, and two observation aids), the
reasons to stop, and the state right after reset (70_reset_and_hazards.md R170). -/

namespace Sys2Proof.Machine

/-- MessageState, the message being assembled (R25 to R30). -/
structure Message where
  /-- `msg.active` (R25). -/
  active : Bool
  /-- `msg.address`, the full 21-bit address (R26). -/
  address : PagerAddress
  /-- `msg.function` (R27). -/
  function : FunctionCode
  /-- `msg.text`, oldest first, unbounded (R28, D15). -/
  text : List CharCode
  /-- `msg.numeric`, oldest first, unbounded (R29, D15). -/
  numeric : List DigitCode
  /-- `msg.treg`, the text decoder's 7-bit sliding register (R30). -/
  treg : BitVec 7
  /-- `msg.tcnt`, the bits taken since the last completed character, 0 to 6 (R30). -/
  tcnt : Nat
  deriving DecidableEq, Repr

/-- A PagerMessage record (R53). -/
structure PagerMessage where
  address : PagerAddress
  function : FunctionCode
  text : List CharCode
  numeric : List DigitCode
  endOfMessage : Bool
  channel : String
  deriving DecidableEq, Repr

/-- The conditions of the source's error taxonomy (R151). -/
inductive EventKind where
  /-- Code 1. Reported as a step's result 0, never appended to `ev`. -/
  | needInput
  /-- Code 2. -/
  | syncMiss
  /-- Code 3. -/
  | uncorrectable
  /-- Code 4. -/
  | syncInBatch
  /-- Code 5. -/
  | idleNoMessage
  /-- Code 6. -/
  | corrected
  deriving DecidableEq, Repr

/-- An event's info: a 32-bit word or a small count (R77). -/
inductive EventInfo where
  | word (w : Word)
  | count (n : Nat)
  deriving DecidableEq, Repr

/-- An event record, a pair of code and info (R77). -/
structure Event where
  kind : EventKind
  info : EventInfo
  deriving DecidableEq, Repr

/-- The configuration registers, read-only after construction (R32 to R35). -/
structure Cfg where
  /-- `cfg.initial_state` (R32). -/
  initialState : ControlState
  /-- `cfg.preamble_len` (R33). -/
  preambleLen : Nat
  /-- `cfg.channel`, an opaque label (R34). -/
  channel : String
  /-- `cfg.symbol_rate` (R35). -/
  symbolRate : SymbolRate
  deriving DecidableEq, Repr

/-- The registers of an instance, which are also what STATUS copies (R104): all of its state but the two queues. -/
structure Registers where
  /-- `state`, the control state (R21). -/
  state : ControlState
  /-- `acc`, the BitAccumulator, newest stored bit in bit 0 (R23). -/
  acc : Word
  /-- `word_count`, 0 to 16 (R24). -/
  wordCount : Nat
  /-- `msg` (R25 to R30). -/
  msg : Message
  /-- `sync_in_batch_seen`, sticky (R31). -/
  syncInBatchSeen : Bool
  /-- `debug` (R36). -/
  debug : Bool
  /-- `cfg` (R32 to R35). -/
  cfg : Cfg
  deriving DecidableEq, Repr

/-- What an operation hands back to its caller. The model's own field: the spec gives the results (R100, R86 to R91,
R107), this gives them a place. -/
inductive Reply where
  /-- RESET, SET_DEBUG and the operations without a result. -/
  | nothing
  /-- WORK: the count of symbols consumed (R101). -/
  | count (n : Nat)
  /-- A step: the symbols it consumed, 0, 1 or 32 (R102); 0 is NEED_INPUT (R156). -/
  | taken (n : Nat)
  /-- STATUS (R104). -/
  | status (r : Registers)
  /-- SYNDROME and CORRECT. -/
  | word (w : Word)
  /-- POPCOUNT and HAMMING. -/
  | number (n : Nat)
  /-- ODD_PARITY and PREAMBLE_MATCH. -/
  | bit (b : Bool)
  /-- The records the host removed from `out` (R100). -/
  | records (l : List PagerMessage)
  /-- The events the host removed from `ev` (R100). -/
  | events (l : List Event)
  deriving DecidableEq, Repr

/-- What the host does next. It can do exactly four things to an instance, by their codes, and remove records
from the front of `out` and events from `ev` (R100; which events, log entry 16); for anything else, an internal operation among them (R172), there is no move
(D1). -/
inductive HostAction where
  /-- A host operation by its code (R76) with its operand. -/
  | operation (code : Nat) (operand : Operand)
  | takeRecords (n : Nat)
  | takeEvents (n : Nat)
  deriving DecidableEq, Repr

/-- One item of the single total order of observations (R55). -/
inductive Observation where
  /-- Symbols consumed by one step, as observed, first in time first. -/
  | symbols (l : List Symbol)
  | event (e : Event)
  | record (r : PagerMessage)
  deriving DecidableEq, Repr

/-- The state. The registers, `out` and `ev` are the block's; the fields after them are the model's own and stand for the
host's side or for an observation the spec allows. -/
structure State extends Registers where
  /-- `out`, the output queue, oldest first, unbounded (R37). -/
  out : List PagerMessage
  /-- `ev`, the event trace, oldest first (R38). -/
  ev : List Event
  /-- The presented symbols not yet consumed, `InAvail()` of them (R10); empty between host operations (R39, R51). -/
  input : List Symbol
  /-- The consumed-symbol counter a model may keep (R22). -/
  consumed : Nat
  /-- The total order of symbols consumed, events raised and records emitted (R55). -/
  trace : List Observation
  /-- What the last operation handed back. -/
  reply : Reply
  /-- The host's pending actions, next first: where a step of the machine fetches. -/
  pending : List HostAction
  /-- An operation of the table placed for the next step to run by itself, whatever its space: not a move of the host and
  not a state of the block, but the model's means to run a single row. No step places one. DESIGN CHOICE, log entry
  3. -/
  placed : Option Request
  deriving DecidableEq, Repr

/-- The reasons for a fault. There are none: no condition traps, halts or faults (R150), and a model of this block needs
neither a fault outcome nor a stuck outcome (R168). -/
inductive Fault where
  deriving DecidableEq, Repr

/-- The reasons for a refusal. Refusals arise only at the host interface (R168). -/
inductive Refusal where
  /-- Raised by exec for an operation without a meaning; no operation is without one. Safe. -/
  | notModelled (mnemonic : String)
  /-- Raised by RESET for an INITIAL_STATE other than SearchSync and SearchPreambleStart (R32, R170). Safe: the spec
  refuses it, with no successor state. -/
  | illegalInitialState
  /-- Raised by RESET for a PREAMBLE_LEN outside 2..32 (R33, R170). Safe, as above. -/
  | illegalPreambleLen
  /-- Raised by step for a request that is no operation, a symbol other than 0 and 1 among them (R46). Safe. -/
  | rejected (e : DecodeError)
  /-- Raised for an operation on an instance that was never constructed (R173); only Bank and Stimulus meet it, since a
  State is a constructed instance. Safe. -/
  | noInstance
  deriving DecidableEq, Repr

/-- The state right after RESET with the default configuration (R170; V9 row 1). -/
def State.reset : State where
  state := .searchSync
  acc := 0
  wordCount := 0
  msg :=
    { active := false, address := 0, function := 0, text := [], numeric := [], treg := 0, tcnt := 0 }
  syncInBatchSeen := false
  debug := false
  cfg := { initialState := .searchSync, preambleLen := 32, channel := "ch0", symbolRate := ⟨0, 0⟩ }
  out := []
  ev := []
  input := []
  consumed := 0
  trace := []
  reply := .nothing
  pending := []
  placed := none

end Sys2Proof.Machine
end

