-- ==== Sys2Proof/Machine/Operands.lean ====
section
/-! DEFINITION. Operand forms: the bit order that turns symbols into words (20_memory.md R47, R48), the fields of a
codeword (30_encoding.md R61 to R70), the preamble patterns (R71), and the rendering of codes (42_message_assembler.md
R138, R139). -/

namespace Sys2Proof.Machine

/-- The stored bit of an observed symbol, 1 - s (R47). -/
def storedBit (s : Symbol) : Bool := !s

/-- One left shift with the new bit at the low end, cut to 32 bits (R48, R106). -/
def shiftBit (w : Word) (b : Bool) : Word := (w <<< 1) ||| (if b then 1 else 0)

/-- ReadWord (R48) on the symbols it reads: the first becomes bit 31, each is inverted. -/
def wordOfSymbols (syms : List Symbol) : Word := syms.foldl (fun w s => shiftBit w (storedBit s)) 0

/-- The 32 observed symbols, first in time first, whose stored word is w (R78, R79). -/
def symbolsOfWord (w : Word) : List Symbol :=
  (List.range 32).map fun j => !w.getLsbD (31 - j)

/-- The pager address field, bits 30..13 (R62). -/
def addr18 (c : Word) : BitVec 18 := c.extractLsb' 13 18

/-- The function code, bits 12..11 (R68). -/
def funcField (c : Word) : FunctionCode := c.extractLsb' 11 2

/-- The payload, bits 30..11 (R63). -/
def payload (c : Word) : Payload := c.extractLsb' 11 20

/-- The frame, i div 2, 3 bits (R67). -/
def frame (i : Nat) : BitVec 3 := BitVec.ofNat 3 (i / 2)

/-- The full address: addr18 followed by the frame bits (R67). -/
def fullAddress (c : Word) (i : Nat) : PagerAddress := addr18 c ++ frame i

/-- The payload's bits, p[19] first (R69). -/
def payloadBits (p : Payload) : List Bool :=
  [p.getLsbD 19, p.getLsbD 18, p.getLsbD 17, p.getLsbD 16, p.getLsbD 15, p.getLsbD 14, p.getLsbD 13,
   p.getLsbD 12, p.getLsbD 11, p.getLsbD 10, p.getLsbD 9, p.getLsbD 8, p.getLsbD 7, p.getLsbD 6,
   p.getLsbD 5, p.getLsbD 4, p.getLsbD 3, p.getLsbD 2, p.getLsbD 1, p.getLsbD 0]

/-- The payload's five nibbles, most significant first, bits as written (R70). -/
def payloadDigits (p : Payload) : List DigitCode :=
  [p.extractLsb' 16 4, p.extractLsb' 12 4, p.extractLsb' 8 4, p.extractLsb' 4 4, p.extractLsb' 0 4]

/-- The mask of the low L bits (R107). -/
def lowMask (L : Nat) : Word := (1#32 <<< L) - 1

/-- PA_L: the odd bit positions below L are 1 (R71). -/
def preambleA (L : Nat) : Word := 0xAAAAAAAA#32 &&& lowMask L

/-- PB_L: the complement of PA_L within L bits (R71). -/
def preambleB (L : Nat) : Word := ~~~(preambleA L) &&& lowMask L

/-- PREAMBLE_MATCH on an accumulator value (R107). -/
def preambleMatches (L : Nat) (a : Word) : Bool :=
  a &&& lowMask L == preambleA L || a &&& lowMask L == preambleB L

/-- The character of a text code, for the consumer (R138): the ASCII character with that code point. -/
def renderChar (c : CharCode) : Char := Char.ofNat c.toNat

/-- Text rendering (R138): no filtering and no stripping. -/
def renderText (text : List CharCode) : List Char := text.map renderChar

/-- The character of a digit code (R139): character n of NUMERIC_TABLE. -/
def renderDigit (d : DigitCode) : Char := Config.numericTable.getD d.toNat ' '

/-- Numeric rendering (R139). -/
def renderNumeric (digits : List DigitCode) : List Char := digits.map renderDigit

end Sys2Proof.Machine
end

