-- ==== Sys2Proof/Machine/Flags.lean ====
section
/-! DEFINITION. The block's conditions and flags: the emission predicate, the SYNC match, the event codes and the sticky
flag. It has no condition codes. -/

namespace Sys2Proof.Machine

/-- The emission predicate E (R126, D26): the full address is nonzero, or text has accumulated. -/
def emissible (m : Message) : Bool := m.address != 0 || decide (0 < m.text.length)

/-- A SYNC match: Hamming distance at most 2 on raw bits (R110, R113). -/
def syncMatches (w : Word) : Bool := decide (Codec.hamming w Config.syncWord ≤ Config.syncTolerance)

/-- The code of an event kind (R151). -/
def eventCode : EventKind → Nat
  | .needInput => 1
  | .syncMiss => 2
  | .uncorrectable => 3
  | .syncInBatch => 4
  | .idleNoMessage => 5
  | .corrected => 6

/-- A step's result 0 is the condition NEED_INPUT, which is not appended to `ev` (R151, R156). -/
def replyEvent : Reply → Option EventKind
  | .nothing => none
  | .count _ => none
  | .taken n => if n = 0 then some .needInput else none
  | .status _ => none
  | .word _ => none
  | .number _ => none
  | .bit _ => none
  | .records _ => none
  | .events _ => none

/-- Setting the sticky flag `sync_in_batch_seen` (R31, R135). -/
def setSyncInBatchSeen (s : State) : State := { s with syncInBatchSeen := true }

end Sys2Proof.Machine
end

