-- ==== Sys2Proof/Machine/Ops.lean ====
section
/-! DEFINITION. The named operations over state that the meanings share: the stream primitives, the event trace, the
message state, construction, and the two control transfers. Loss of sync plays the part of a trap (60_exceptions.md
R160) and is ONE operation here; re-acquisition plays the part of the return (R161). -/

namespace Sys2Proof.Machine

/-! ## Streams -/

/-- Consuming the next n presented symbols (R47, R52), counted (R22) and observed in order (R55). -/
def consume (n : Nat) (s : State) : State :=
  { s with
    input := s.input.drop n
    consumed := s.consumed + n
    trace := s.trace ++ [.symbols (s.input.take n)] }

/-- The word that ReadWord reads from the next 32 symbols (R48). -/
def nextWord (s : State) : Word := wordOfSymbols (s.input.take Config.wordBits)

/-- Emit(rec) (R53): append one record to `out`. -/
def appendRecord (r : PagerMessage) (s : State) : State :=
  { s with out := s.out ++ [r], trace := s.trace ++ [.record r] }

/-- raise (R152): append an event to `ev`; control flow does not change. -/
def raiseEvent (e : Event) (s : State) : State :=
  { s with ev := s.ev ++ [e], trace := s.trace ++ [.event e] }

/-! ## The accumulator -/

/-- SHIFT_IN (R106). -/
def shiftIn (b : Bool) (s : State) : State := { s with acc := shiftBit s.acc b }

/-! ## The message state -/

/-- MSG_RESET (R128). -/
def msgReset (s : State) : State :=
  { s with
    msg :=
      { active := false, address := 0, function := 0, text := [], numeric := [], treg := 0, tcnt := 0 } }

/-- The record of the current message (R53, R127). The partial character is not part of it. -/
def recordOf (s : State) (eom : Bool) : PagerMessage where
  address := s.msg.address
  function := s.msg.function
  text := s.msg.text
  numeric := s.msg.numeric
  endOfMessage := eom
  channel := s.cfg.channel

/-- EMIT (R127): the message state is not changed. -/
def emitMessage (eom : Bool) (s : State) : State := appendRecord (recordOf s eom) s

/-- EMIT guarded by E, as every emission of the assembler is (R126). -/
def emitIfEmissible (eom : Bool) (s : State) : State :=
  if emissible s.msg then emitMessage eom s else s

/-- FLUSH_PARTIAL (R136). -/
def flushPartial (s : State) : State := msgReset (emitIfEmissible false s)

/-! ## Control transfers -/

/-- ENTER_INITIAL, the acquisition restart (R116); with reset the only place that clears `acc` (R117). These rules give no
entry into `SearchSync` in preamble-search mode, although R122, which is derived from them, calls all five control states
reachable there. The model follows the step rules: DESIGN CHOICE, log entry 17. -/
def enterInitial (s : State) : State := { s with state := s.cfg.initialState, acc := 0 }

/-- Loss of sync (R154, R155, R160), the trap-like transfer: the event, the partial record, the acquisition restart, in
that order. -/
def loseSync (e : Event) (s : State) : State := enterInitial (flushPartial (raiseEvent e s))

/-- ENTER_SYNCHED (R115), which is also the return from loss of sync (R161). -/
def enterSynched (s : State) : State := { s with state := .synched, wordCount := 0 }

/-! ## Construction -/

/-- Whether an INITIAL_STATE is legal (R32). -/
def legalInitialState : ControlState → Bool
  | .searchPreambleStart => true
  | .searchPreambleEnd => false
  | .sync => false
  | .searchSync => true
  | .synched => false

/-- Whether a PREAMBLE_LEN is legal (R33). -/
def legalPreambleLen (L : Nat) : Bool :=
  decide (Config.minPreambleLen ≤ L ∧ L ≤ Config.maxPreambleLen)

/-- A newly constructed instance (R170), beside the actions the host still has pending. -/
def construct (c : Construction) (pending : List HostAction) : State where
  state := c.initialState
  acc := 0
  wordCount := 0
  msg :=
    { active := false, address := 0, function := 0, text := [], numeric := [], treg := 0, tcnt := 0 }
  syncInBatchSeen := false
  debug := c.debugInit
  cfg :=
    { initialState := c.initialState, preambleLen := c.preambleLen, channel := c.channel,
      symbolRate := c.symbolRate }
  out := []
  ev := []
  input := []
  consumed := 0
  trace := []
  reply := .nothing
  pending := pending
  placed := none

/-! ## Results and the host's removals -/

/-- Handing a result back. -/
def answer (r : Reply) (s : State) : State := { s with reply := r }

/-- The host removes up to n records from the front of `out` (R54, R100). -/
def takeRecords (n : Nat) (s : State) : State :=
  { s with out := s.out.drop n, reply := .records (s.out.take n) }

/-- The host removes up to n events from `ev` (R38, R100). That they are the oldest ones is the model's choice: the rules
speak of the front for `out` alone (DESIGN CHOICE, log entry 16). -/
def takeEvents (n : Nat) (s : State) : State :=
  { s with ev := s.ev.drop n, reply := .events (s.ev.take n) }

end Sys2Proof.Machine
end

