-- ==== Sys2Proof/Machine/CodecOps.lean ====
section
/-! DEFINITION. The meanings of the codec rows: each reads only its operands and writes only its result (40_bch_codec.md,
introduction; R94). -/

namespace Sys2Proof.Machine

/-- SYNDROME (R89). -/
def execSyndrome (w : Word) (s : State) : Host.Outcome State Fault Refusal :=
  .next (answer (.word (Codec.syndrome w)) s)

/-- CORRECT (R91). -/
def execCorrect (w : Word) (s : State) : Host.Outcome State Fault Refusal :=
  .next (answer (.word (Codec.correct w)) s)

/-- POPCOUNT (R86). -/
def execPopcount (w : Word) (s : State) : Host.Outcome State Fault Refusal :=
  .next (answer (.number (Codec.popcount w)) s)

/-- ODD_PARITY (R87). -/
def execOddParity (w : Word) (s : State) : Host.Outcome State Fault Refusal :=
  .next (answer (.bit (Codec.oddParity w)) s)

/-- HAMMING (R88). -/
def execHamming (a b : Word) (s : State) : Host.Outcome State Fault Refusal :=
  .next (answer (.number (Codec.hamming a b)) s)

end Sys2Proof.Machine
end

