-- ==== Sys2Proof/Machine/Assembler.lean ====
section
/-! DEFINITION. The message assembler (42_message_assembler.md): one operation per word class, the two payload decoders,
and the meanings of their rows. -/

namespace Sys2Proof.Machine

/-! ## The payload decoders -/

/-- One bit into the text decoder (R131): shift right, the new bit at the high end; the seventh bit completes a
character. The register is not cleared by a completion (R132). -/
def feedTextBit (m : Message) (b : Bool) : Message :=
  let treg := (m.treg >>> 1) ||| ((if b then 1#7 else 0#7) <<< 6)
  if m.tcnt + 1 = Config.charBits then { m with treg := treg, text := m.text ++ [treg], tcnt := 0 }
  else { m with treg := treg, tcnt := m.tcnt + 1 }

/-- TEXT_FEED (R131). -/
def feedText (p : Payload) (m : Message) : Message := (payloadBits p).foldl feedTextBit m

/-- NUMERIC_FEED (R133). -/
def feedNumeric (p : Payload) (m : Message) : Message :=
  { m with numeric := m.numeric ++ payloadDigits p }

/-! ## The word classes -/

/-- UNCORRECTABLE (R154): the event carries the word as received (D21). -/
def uncorrectableWord (w : Word) (s : State) : State :=
  loseSync { kind := .uncorrectable, info := .word w } s

/-- SYNC_IN_BATCH at word index i (R135): logged and ignored, the message state is not changed (D12). -/
def syncInBatchWord (i : Nat) (s : State) : State :=
  raiseEvent { kind := .syncInBatch, info := .count i } (setSyncInBatchSeen s)

/-- IDLE_WORD (R129). -/
def idleWord (s : State) : State :=
  if s.msg.active then msgReset (emitIfEmissible true s)
  else raiseEvent { kind := .idleNoMessage, info := .word Config.idleWord } s

/-- DATA_WORD (R130): both decoders, with or without an active message (D9). -/
def dataWord (c : Word) (s : State) : State :=
  { s with msg := feedNumeric (payload c) (feedText (payload c) s.msg) }

/-- ADDRESS_WORD at word index i (R134): the previous message is dropped, not emitted. -/
def addressWord (c : Word) (i : Nat) (s : State) : State :=
  { s with
    msg :=
      { active := true, address := fullAddress c i, function := funcField c, text := [],
        numeric := [], treg := 0, tcnt := 0 } }

/-- ASSEMBLE (R125). -/
def assemble (c : Word) (i : Nat) (s : State) : State :=
  if c = Config.idleWord then idleWord s
  else if c.getLsbD 31 then dataWord c s
  else addressWord c i s

/-! ## The meanings. A word class acts at the word index `word_count`; reading the word and counting it belong to the
`Synched` step (R114). -/

/-- UNCORRECTABLE. -/
def execUncorrectable (w : Word) (s : State) : Host.Outcome State Fault Refusal :=
  .next (answer .nothing (uncorrectableWord w s))

/-- SYNC_IN_BATCH. -/
def execSyncInBatch (s : State) : Host.Outcome State Fault Refusal :=
  .next (answer .nothing (syncInBatchWord s.wordCount s))

/-- IDLE. -/
def execIdle (s : State) : Host.Outcome State Fault Refusal :=
  .next (answer .nothing (idleWord s))

/-- DATA. -/
def execData (c : Word) (s : State) : Host.Outcome State Fault Refusal :=
  .next (answer .nothing (dataWord c s))

/-- ADDRESS. -/
def execAddress (c : Word) (s : State) : Host.Outcome State Fault Refusal :=
  .next (answer .nothing (addressWord c s.wordCount s))

/-- TEXT_FEED. -/
def execTextFeed (p : Payload) (s : State) : Host.Outcome State Fault Refusal :=
  .next (answer .nothing { s with msg := feedText p s.msg })

/-- NUMERIC_FEED. -/
def execNumericFeed (p : Payload) (s : State) : Host.Outcome State Fault Refusal :=
  .next (answer .nothing { s with msg := feedNumeric p s.msg })

/-- EMIT. -/
def execEmit (eom : Bool) (s : State) : Host.Outcome State Fault Refusal :=
  .next (answer .nothing (emitMessage eom s))

end Sys2Proof.Machine
end

