-- ==== Sys2Proof/Machine/Automaton.lean ====
section
/-! DEFINITION. The synchronization automaton (41_sync_automaton.md): one step rule per control state. A step answers the
number of symbols it consumed, 0, 1 or 32, and the state after it; 0 means that it changed nothing (R102). -/

namespace Sys2Proof.Machine

/-- One symbol consumed and shifted into the accumulator, SHIFT_IN(InBit()) (R47, R106). -/
def shiftSymbol (x : Symbol) (s : State) : State := shiftIn (storedBit x) (consume 1 s)

/-- STEP_SPS (R108). -/
def stepSps (s : State) : Nat × State :=
  match s.input with
  | [] => (0, s)
  | x :: _ =>
    let t := shiftSymbol x s
    (1, if preambleMatches t.cfg.preambleLen t.acc then { t with state := .searchPreambleEnd } else t)

/-- STEP_SPE (R109). -/
def stepSpe (s : State) : Nat × State :=
  match s.input with
  | [] => (0, s)
  | x :: _ =>
    let t := shiftSymbol x s
    (1, if preambleMatches t.cfg.preambleLen t.acc then t else { t with state := .sync })

/-- STEP_SEARCHSYNC (R110). -/
def stepSearchSync (s : State) : Nat × State :=
  match s.input with
  | [] => (0, s)
  | x :: _ =>
    let t := shiftSymbol x s
    (1, if syncMatches t.acc then enterSynched t else t)

/-- STEP_SYNC (R113). -/
def stepSync (s : State) : Nat × State :=
  if s.input.length < Config.wordBits then (0, s)
  else
    let w := nextWord s
    let t := consume Config.wordBits s
    (Config.wordBits,
      if syncMatches w then enterSynched t else loseSync { kind := .syncMiss, info := .word w } t)

/-- Counting a word of the batch; the one that makes the count 16 ends the batch (R114). -/
def countWord (s : State) : State :=
  if s.wordCount + 1 = Config.batchWords then
    { s with wordCount := s.wordCount + 1, state := .sync }
  else { s with wordCount := s.wordCount + 1 }

/-- CORRECTED, raised when correction changed the word (R114, R153). -/
def noteCorrection (c w : Word) (s : State) : State :=
  if c = w then s else raiseEvent { kind := .corrected, info := .count (Codec.hamming c w) } s

/-- The processing of a word w read in `Synched` (R114), classes in the order of R72. -/
def synchedWord (w : Word) (s : State) : State :=
  let c := Codec.correct w
  if Codec.valid c then
    let t := noteCorrection c w s
    countWord
      (if c = Config.syncWord then syncInBatchWord t.wordCount t else assemble c t.wordCount t)
  else uncorrectableWord w s

/-- STEP_SYNCHED (R114). -/
def stepSynched (s : State) : Nat × State :=
  if s.input.length < Config.wordBits then (0, s)
  else (Config.wordBits, synchedWord (nextWord s) (consume Config.wordBits s))

/-- STEP (R102): the dispatch on the control state. -/
def automatonStep (s : State) : Nat × State :=
  match s.state with
  | .searchPreambleStart => stepSps s
  | .searchPreambleEnd => stepSpe s
  | .searchSync => stepSearchSync s
  | .sync => stepSync s
  | .synched => stepSynched s

/-- The result of a step handed back: the number of symbols consumed. -/
def answerStep (r : Nat × State) : State := answer (.taken r.1) r.2

/-- STEP_SPS. -/
def execStepSps (s : State) : Host.Outcome State Fault Refusal := .next (answerStep (stepSps s))

/-- STEP_SPE. -/
def execStepSpe (s : State) : Host.Outcome State Fault Refusal := .next (answerStep (stepSpe s))

/-- STEP_SYNC. -/
def execStepSync (s : State) : Host.Outcome State Fault Refusal := .next (answerStep (stepSync s))

/-- STEP_SEARCHSYNC. -/
def execStepSearchSync (s : State) : Host.Outcome State Fault Refusal :=
  .next (answerStep (stepSearchSync s))

/-- STEP_SYNCHED. -/
def execStepSynched (s : State) : Host.Outcome State Fault Refusal :=
  .next (answerStep (stepSynched s))

/-- SHIFT_IN (R106). -/
def execShiftIn (b : Bool) (s : State) : Host.Outcome State Fault Refusal :=
  .next (answer .nothing (shiftIn b s))

/-- PREAMBLE_MATCH (R107), with L = `cfg.preamble_len`. -/
def execPreambleMatch (a : Word) (s : State) : Host.Outcome State Fault Refusal :=
  .next (answer (.bit (preambleMatches s.cfg.preambleLen a)) s)

end Sys2Proof.Machine
end

