-- ==== Sys2Proof/Machine/HostOps.lean ====
section
/-! DEFINITION. The four host operations (41_sync_automaton.md R100 to R104, 70_reset_and_hazards.md R170, R171). Each
is atomic (R5): it runs to completion before the next one starts (R76). -/

namespace Sys2Proof.Machine

/-- RESET (R170): refused for an illegal configuration, with no successor state; else all state is replaced and nothing
is emitted (R171). -/
def execReset (cfg : Construction) (s : State) : Host.Outcome State Fault Refusal :=
  if legalInitialState cfg.initialState then
    if legalPreambleLen cfg.preambleLen then .next (construct cfg s.pending)
    else .refused .illegalPreambleLen
  else .refused .illegalInitialState

/-- WORK's loop (R101): steps until one consumes nothing. The first argument bounds the number of steps; a step that
consumes something consumes at least one symbol, so one more than the number of presented symbols is enough (R119). -/
def runSteps : Nat → Nat → State → Nat × State
  | 0, consumed, s => (consumed, s)
  | fuel + 1, consumed, s =>
    match automatonStep s with
    | (0, _) => (consumed, s)
    | (n + 1, t) => runSteps fuel (consumed + (n + 1)) t

/-- WORK (R101). The unconsumed symbols stay the host's; the block keeps no copy (R51). -/
def execWork (buf : List Symbol) (s : State) : Host.Outcome State Fault Refusal :=
  let r := runSteps (buf.length + 1) 0 { s with input := buf }
  .next (answer (.count r.1) { r.2 with input := [] })

/-- SET_DEBUG (R103): writes `debug` only. -/
def execSetDebug (v : Bool) (s : State) : Host.Outcome State Fault Refusal :=
  .next (answer .nothing { s with debug := v })

/-- STATUS (R104): a copy of the registers; writes nothing. -/
def execStatus (s : State) : Host.Outcome State Fault Refusal :=
  .next (answer (.status s.toRegisters) s)

end Sys2Proof.Machine
end

