-- ==== Sys2Proof/Machine/Dispatch.lean ====
section
/-! DEFINITION. One arm per operation of the opcode table. -/

namespace Sys2Proof.Machine

def exec (i : Instr) (s : State) : Host.Outcome State Fault Refusal :=
  match i with
  | .reset cfg => Sys2Proof.Machine.execReset cfg s
  | .work buf => Sys2Proof.Machine.execWork buf s
  | .setDebug v => Sys2Proof.Machine.execSetDebug v s
  | .status => Sys2Proof.Machine.execStatus s
  | .stepSps => Sys2Proof.Machine.execStepSps s
  | .stepSpe => Sys2Proof.Machine.execStepSpe s
  | .stepSync => Sys2Proof.Machine.execStepSync s
  | .stepSearchSync => Sys2Proof.Machine.execStepSearchSync s
  | .stepSynched => Sys2Proof.Machine.execStepSynched s
  | .uncorrectable w => Sys2Proof.Machine.execUncorrectable w s
  | .syncInBatch => Sys2Proof.Machine.execSyncInBatch s
  | .idle => Sys2Proof.Machine.execIdle s
  | .data c => Sys2Proof.Machine.execData c s
  | .address c => Sys2Proof.Machine.execAddress c s
  | .syndrome w => Sys2Proof.Machine.execSyndrome w s
  | .correct w => Sys2Proof.Machine.execCorrect w s
  | .popcount w => Sys2Proof.Machine.execPopcount w s
  | .oddParity w => Sys2Proof.Machine.execOddParity w s
  | .hamming a b => Sys2Proof.Machine.execHamming a b s
  | .shiftIn b => Sys2Proof.Machine.execShiftIn b s
  | .preambleMatch a => Sys2Proof.Machine.execPreambleMatch a s
  | .textFeed p => Sys2Proof.Machine.execTextFeed p s
  | .numericFeed p => Sys2Proof.Machine.execNumericFeed p s
  | .emit eom => Sys2Proof.Machine.execEmit eom s

end Sys2Proof.Machine
end

