-- ==== Sys2Proof/Machine/Fetch.lean ====
section
/-! DEFINITION. Running what the host asks for: its four operations and its removals from the queues (R100), and the one
operation that the model lets be placed beside them. Operations run one at a time, each to completion (R55, R76). -/

namespace Sys2Proof.Machine

/-- What a decoder answered: the operation is executed, and a request that is no operation is refused by name. -/
def runDecoded (d : Except DecodeError Instr) (s : State) : Host.Outcome State Fault Refusal :=
  match d with
  | .ok i => exec i s
  | .error e => .refused (.rejected e)

/-- One action of the host: one of the four host operations, or a removal (R100). -/
def runAction (a : HostAction) (s : State) : Host.Outcome State Fault Refusal :=
  match a with
  | .operation code operand => runDecoded (decodeHostOp code operand) s
  | .takeRecords n => .next (takeRecords n s)
  | .takeEvents n => .next (takeEvents n s)

/-- The host's next action taken off its list and run. With none pending the block is idle and keeps all its state
(R167). -/
def runHost (s : State) : Host.Outcome State Fault Refusal :=
  match s.pending with
  | [] => .next s
  | a :: rest => runAction a { s with pending := rest }

/-- A placed operation, once; without one, the host's next action. -/
def runNext (s : State) : Host.Outcome State Fault Refusal :=
  match s.placed with
  | none => runHost s
  | some r => runDecoded (decode r) { s with placed := none }

/-- A table word placed for the next step. -/
def placeWord (s : State) (nbits w : Nat) : State :=
  { s with placed := some (tableRequest nbits w) }

end Sys2Proof.Machine
end

