-- ==== Sys2Proof/Machine/Bank.lean ====
section
/-! DEFINITION. Several channels: independent instances that share no state (60_exceptions.md R163), each absent before
its first RESET (70_reset_and_hazards.md R173). The spec neither numbers nor bounds instances. That the host names one by
its position in a list, and that there is no last position, is the model's choice (DESIGN CHOICE, log entry 11). -/

namespace Sys2Proof.Machine

/-- The host's instances; none where RESET has not constructed one yet, which is also what every position past the end
reads as (log entry 11). -/
abbrev Bank := List (Option State)

/-- An operation on one slot: RESET constructs where there is no instance, and no other operation is legal there
(R173). -/
def runOnSlot (i : Instr) (slot : Option State) : Host.Outcome State Fault Refusal :=
  match slot with
  | some s => exec i s
  | none =>
    match i with
    | .reset c => exec (.reset c) State.reset
    | .work _ => .refused .noInstance
    | .setDebug _ => .refused .noInstance
    | .status => .refused .noInstance
    | .stepSps => .refused .noInstance
    | .stepSpe => .refused .noInstance
    | .stepSync => .refused .noInstance
    | .stepSearchSync => .refused .noInstance
    | .stepSynched => .refused .noInstance
    | .uncorrectable _ => .refused .noInstance
    | .syncInBatch => .refused .noInstance
    | .idle => .refused .noInstance
    | .data _ => .refused .noInstance
    | .address _ => .refused .noInstance
    | .syndrome _ => .refused .noInstance
    | .correct _ => .refused .noInstance
    | .popcount _ => .refused .noInstance
    | .oddParity _ => .refused .noInstance
    | .hamming _ _ => .refused .noInstance
    | .shiftIn _ => .refused .noInstance
    | .preambleMatch _ => .refused .noInstance
    | .textFeed _ => .refused .noInstance
    | .numericFeed _ => .refused .noInstance
    | .emit _ => .refused .noInstance

/-- The bank with an instance at position k; the list grows with absent instances where k is past its end, so every
position can hold an instance (log entry 11). -/
def putSlot : Nat → State → Bank → Bank
  | 0, s, [] => [some s]
  | 0, s, _ :: b => some s :: b
  | k + 1, s, [] => none :: putSlot k s []
  | k + 1, s, x :: b => x :: putSlot k s b

/-- An operation on the k-th instance: only that instance is read and written (R163). RESET constructs one at any absent
position, past the end of the list too; the bank has no bound (DESIGN CHOICE, log entry 11). A refusal gives the bank no
successor, so a refused RESET changes no instance (R170). -/
def runInBank (k : Nat) (i : Instr) (b : Bank) : Host.Outcome Bank Fault Refusal :=
  match runOnSlot i (b.getD k none) with
  | .next s => .next (putSlot k s b)
  | .fault f => .fault f
  | .refused r => .refused r

end Sys2Proof.Machine
end

