-- ==== Sys2Proof/Machine/Cost.lean ====
section
/-! DEFINITION. The work counts of 70_reset_and_hazards.md R180: information only, since no rule depends on timing and
nothing in State holds a time. -/

namespace Sys2Proof.Machine

/-- SYNDROME evaluations of CORRECT(w), with the search order of D13: one for the word itself and one for each candidate
tried. -/
def correctEvaluations (w : Word) : Nat :=
  if Codec.valid w then 1
  else
    let candidates := Codec.singleFlips w ++ Codec.doubleFlips w
    1 + min (candidates.findIdx Codec.valid + 1) candidates.length

/-- SYNDROME evaluations of a `Synched` step that reads w: CORRECT's and the re-check. -/
def synchedEvaluations (w : Word) : Nat := correctEvaluations w + 1

/-- Reduction iterations of that step, 21 for each evaluation. -/
def synchedIterations (w : Word) : Nat := Config.bchK * synchedEvaluations w

end Sys2Proof.Machine
end

