-- ==== Sys2Proof/Safety.lean ====
section
/-! DEFINITION. What statements call a sound state: the invariant of a block that the host drives by its own operations,
and the predicates statements share. -/

namespace Sys2Proof.Machine

/-- The symbols a step of a control state needs (R73, R74). -/
def stepLength : ControlState → Nat
  | .searchPreambleStart => 1
  | .searchPreambleEnd => 1
  | .sync => 32
  | .searchSync => 1
  | .synched => 32

/-- What the message state satisfies between operations. -/
structure Message.Sound (m : Message) : Prop where
  /-- `msg.tcnt` is 0 to 6 (R30). -/
  tcnt_le : m.tcnt ≤ 6
  /-- Only an address word writes the address and the function, and it sets `msg.active` (R25 to R27). -/
  inactive_blank : m.active = false → m.address = 0 ∧ m.function = 0
  /-- Each data word gives both decoders the same 20 bits (R130, R131, R133). -/
  same_bits : 7 * m.text.length + m.tcnt = 4 * m.numeric.length

/-- What every event of the trace satisfies (R151). -/
def Event.Sound (e : Event) : Prop :=
  (e.kind = .syncMiss ∧ ∃ w, e.info = .word w ∧ 2 < Codec.hamming w Config.syncWord) ∨
  (e.kind = .uncorrectable ∧ ∃ w, e.info = .word w ∧ Codec.uncorrectable w = true) ∨
  (e.kind = .syncInBatch ∧ ∃ i, e.info = .count i ∧ i < 16) ∨
  (e.kind = .idleNoMessage ∧ e.info = .word Config.idleWord) ∨
  (e.kind = .corrected ∧ (e.info = .count 1 ∨ e.info = .count 2))

/-- The invariant of an instance between two host operations. -/
structure State.Inv (s : State) : Prop where
  /-- `cfg.initial_state` is SearchSync or SearchPreambleStart (R32). -/
  initial_legal : s.cfg.initialState = .searchSync ∨ s.cfg.initialState = .searchPreambleStart
  /-- `cfg.preamble_len` is 2 to 32 (R33). -/
  preamble_legal : 2 ≤ s.cfg.preambleLen ∧ s.cfg.preambleLen ≤ 32
  /-- `word_count` is 0 to 16 (R24). -/
  count_le : s.wordCount ≤ 16
  /-- In `Synched` it is the index of the next word, 0 to 15 (R24). -/
  count_synched : s.state = .synched → s.wordCount < 16
  /-- In direct-sync mode the preamble states are never entered (R122). -/
  direct_sync : s.cfg.initialState = .searchSync →
    s.state ≠ .searchPreambleStart ∧ s.state ≠ .searchPreambleEnd
  /-- In direct-sync mode `Sync` is entered only at the end of a 16-word batch (R122). -/
  sync_after_batch : s.cfg.initialState = .searchSync → s.state = .sync → s.wordCount = 16
  /-- The message state is sound. -/
  message : s.msg.Sound
  /-- Every record satisfies the emission predicate (R140) and carries the channel label (R53). -/
  records : ∀ r ∈ s.out, (r.address ≠ 0 ∨ r.text ≠ []) ∧ r.channel = s.cfg.channel
  /-- Every event is one of the five that are appended, with its info. -/
  events : ∀ e ∈ s.ev, e.Sound
  /-- The block keeps no presented symbol between operations (R51). -/
  no_input : s.input = []
  /-- Only the host's own moves are ahead (R100, R172). -/
  nothing_placed : s.placed = none

/-! ## What statements about several steps speak of -/

/-- Zero or more steps of the automaton, each of which consumed something, and the symbols they consumed together. -/
inductive StepsTo : State → Nat → State → Prop where
  | none (s : State) : StepsTo s 0 s
  | more {s t u : State} {n k : Nat} :
      automatonStep s = (n + 1, t) → StepsTo t k u → StepsTo s (n + 1 + k) u

/-- A host that keeps its duty (R174): each WORK presents the rest of the one before it, then the next chunk. The lists
are the rest before the first chunk, the chunks, and the rest after the last one. -/
inductive FedBy : List Symbol → State → List (List Symbol) → List Symbol → State → Prop where
  | done (rest : List Symbol) (s : State) : FedBy rest s [] rest s
  | feed {rest chunk after : List Symbol} {chunks : List (List Symbol)} {s t u : State} {n : Nat} :
      exec (.work (rest ++ chunk)) s = .next t → t.reply = .count n →
      FedBy ((rest ++ chunk).drop n) t chunks after u → FedBy rest s (chunk :: chunks) after u

/-- The bit stream that the text decoder cuts into characters: the `msg.tcnt` bits it still holds, oldest first, then the
payload's, p[19] first. -/
def textStream (m : Message) (p : Payload) (k : Nat) : Bool :=
  if k < m.tcnt then m.treg.getLsbD (7 - m.tcnt + k) else p.getLsbD (19 - (k - m.tcnt))

/-- The accumulator after shifting in symbols, from a first value. -/
def accAfter (acc : Word) (syms : List Symbol) : Word :=
  syms.foldl (fun a x => (a <<< 1) ||| (if x then 0 else 1)) acc

/-- The k-th word that a buffer of symbols holds. -/
def wordAt (buf : List Symbol) (k : Nat) : Word := wordOfSymbols ((buf.drop (32 * k)).take 32)

/-- The events of a trace, in order. -/
def eventsOf : List Observation → List Event
  | [] => []
  | .symbols _ :: l => eventsOf l
  | .event e :: l => e :: eventsOf l
  | .record _ :: l => eventsOf l

/-- The records of a trace, in order. -/
def recordsOf : List Observation → List PagerMessage
  | [] => []
  | .symbols _ :: l => recordsOf l
  | .event _ :: l => recordsOf l
  | .record r :: l => r :: recordsOf l

/-- The symbols of a trace, in order. -/
def symbolsOf : List Observation → List Symbol
  | [] => []
  | .symbols x :: l => x ++ symbolsOf l
  | .event _ :: l => symbolsOf l
  | .record _ :: l => symbolsOf l

/-- The four host operations (R100). -/
def isHostOperation (i : Instr) : Prop :=
  (∃ c, i = .reset c) ∨ (∃ buf, i = .work buf) ∨ (∃ v, i = .setDebug v) ∨ i = .status

/-- s with other values in the registers that no rule reads: `debug` (R36) and `cfg.symbol_rate` (R35). -/
def withUnread (debug : Bool) (rate : SymbolRate) (s : State) : State :=
  { s with debug := debug, cfg := { s.cfg with symbolRate := rate } }

end Sys2Proof.Machine
end

