-- ==== Sys2Proof/Certificates/Slice0/Obligations.lean ====
section
/-! DEFINITION. The statements for the provers. Each docstring names the rule of the spec it formalises. A next state
written `{ s with … }` is also the frame: every field it does not name is unchanged. `input`, `consumed`, `trace`,
`reply`, `pending` and `placed` are the model's own fields (log entries 1, 3, 6, 7 and 8). -/

open Sys2Proof Sys2Proof.Machine

/-! ## Host operations -/

/-- R170, R171: RESET of any instance replaces all of its state and emits nothing; an illegal configuration is refused,
with no successor state. -/
def Obligations.ResetConstructsOrRefuses : Prop :=
  ∀ (c : Construction) (s : State),
    ((c.initialState = .searchSync ∨ c.initialState = .searchPreambleStart) →
      2 ≤ c.preambleLen → c.preambleLen ≤ 32 →
      exec (.reset c) s = .next
        { state := c.initialState, acc := 0x00000000, wordCount := 0,
          msg :=
            { active := false, address := 0, function := 0, text := [], numeric := [], treg := 0,
              tcnt := 0 },
          syncInBatchSeen := false, debug := c.debugInit,
          cfg :=
            { initialState := c.initialState, preambleLen := c.preambleLen, channel := c.channel,
              symbolRate := c.symbolRate },
          out := [], ev := [], input := [], consumed := 0, trace := [], reply := .nothing,
          pending := s.pending, placed := none }) ∧
    (c.initialState ≠ .searchSync → c.initialState ≠ .searchPreambleStart →
      exec (.reset c) s = .refused .illegalInitialState) ∧
    ((c.initialState = .searchSync ∨ c.initialState = .searchPreambleStart) →
      (c.preambleLen < 2 ∨ 32 < c.preambleLen) →
      exec (.reset c) s = .refused .illegalPreambleLen)

/-- The state after reset is what RESET with the defaults constructs. The channel label and the symbol rate among the
defaults are the model's choice: log entry 2. -/
def Obligations.ResetStateIsTheDefaultConstruction : Prop :=
  ∀ s : State, exec (.reset Config.defaults) s = .next { State.reset with pending := s.pending }

/-- R103. -/
def Obligations.SetDebugWritesDebugOnly : Prop :=
  ∀ (v : Bool) (s : State), exec (.setDebug v) s = .next { s with debug := v, reply := .nothing }

/-- R104: the copy is of `state`, `acc`, `word_count`, the message state, `sync_in_batch_seen`, `debug` and `cfg`; nothing
of the block is written. -/
def Obligations.StatusCopiesAndWritesNothing : Prop :=
  ∀ s : State,
    exec .status s = .next
      { s with
        reply := .status
          { state := s.state, acc := s.acc, wordCount := s.wordCount, msg := s.msg,
            syncInBatchSeen := s.syncInBatchSeen, debug := s.debug, cfg := s.cfg } }

/-- R101: WORK presents the buffer, runs steps until one needs more input than is left, and answers the total consumed. It
always completes. -/
def Obligations.WorkRunsStepsUntilOneNeedsInput : Prop :=
  ∀ (buf : List Symbol) (s : State), ∃ (n : Nat) (t : State),
    StepsTo { s with input := buf } n t ∧ (automatonStep t).1 = 0 ∧
    exec (.work buf) s = .next { t with input := [], reply := .count n }

/-- R101, R119: the count is at most the length of the buffer, and what is left is too short for another step. -/
def Obligations.WorkCountLeavesLessThanAStep : Prop :=
  ∀ (buf : List Symbol) (s : State), ∃ (n : Nat) (t : State),
    exec (.work buf) s = .next t ∧ t.reply = .count n ∧ n ≤ buf.length ∧
    buf.length - n < stepLength t.state ∧ t.consumed = s.consumed + n

/-- R120: the states, records and events depend only on the concatenation of the symbols presented, not on how they were
split into WORK calls. -/
def Obligations.ChunkingDoesNotMatter : Prop :=
  ∀ (chunks : List (List Symbol)) (s : State), chunks ≠ [] →
    ∃ (after : List Symbol) (u v : State) (n : Nat),
      FedBy [] s chunks after u ∧
      exec (.work chunks.flatten) s = .next v ∧ v.reply = .count n ∧
      after = chunks.flatten.drop n ∧
      { u with reply := .nothing } = { v with reply := .nothing }

/-! ## Steps -/

/-- R102: STEP runs the step rule of the control state and answers the number of symbols it consumed, 0, 1 or 32: that
many are taken from the front of the input. 0 means that it changed nothing. -/
def Obligations.StepDispatchesOnControlState : Prop :=
  ∀ s : State,
    exec (stepOf s.state) s =
      .next { (automatonStep s).2 with reply := .taken (automatonStep s).1 } ∧
    ((automatonStep s).1 = 0 ∨ (automatonStep s).1 = 1 ∨ (automatonStep s).1 = 32) ∧
    (automatonStep s).1 ≤ s.input.length ∧
    (automatonStep s).2.input = s.input.drop (automatonStep s).1 ∧
    ((automatonStep s).1 = 0 → (automatonStep s).2 = s)

/-- R51, R74, R105: the control state alone decides how many symbols a step reads; with fewer it reads none and changes
nothing, with enough it reads exactly that many. -/
def Obligations.StepReadsAllOrNothing : Prop :=
  ∀ s : State,
    (s.input.length < stepLength s.state → automatonStep s = (0, s)) ∧
    (stepLength s.state ≤ s.input.length →
      (automatonStep s).1 = stepLength s.state ∧
      (automatonStep s).2.input = s.input.drop (stepLength s.state) ∧
      (automatonStep s).2.consumed = s.consumed + stepLength s.state)

/-- R108. -/
def Obligations.StepSpsShiftsAndMatchesPreamble : Prop :=
  ∀ s : State,
    (s.input = [] → exec .stepSps s = .next { s with reply := .taken 0 }) ∧
    (∀ (x : Symbol) (rest : List Symbol) (a : Word), s.input = x :: rest →
      a = (s.acc <<< 1) ||| (if x then 0 else 1) →
      exec .stepSps s = .next
        { s with
          acc := a
          state := if preambleMatches s.cfg.preambleLen a then .searchPreambleEnd else s.state
          input := rest
          consumed := s.consumed + 1
          trace := s.trace ++ [.symbols [x]]
          reply := .taken 1 })

/-- R109. -/
def Obligations.StepSpeShiftsAndLeavesOnBreak : Prop :=
  ∀ s : State,
    (s.input = [] → exec .stepSpe s = .next { s with reply := .taken 0 }) ∧
    (∀ (x : Symbol) (rest : List Symbol) (a : Word), s.input = x :: rest →
      a = (s.acc <<< 1) ||| (if x then 0 else 1) →
      exec .stepSpe s = .next
        { s with
          acc := a
          state := if preambleMatches s.cfg.preambleLen a then s.state else .sync
          input := rest
          consumed := s.consumed + 1
          trace := s.trace ++ [.symbols [x]]
          reply := .taken 1 })

/-- R110: a match at distance at most 2 enters `Synched` with `word_count` 0 (R115); no event, message state untouched. -/
def Obligations.StepSearchSyncMatchesWithinTwo : Prop :=
  ∀ s : State,
    (s.input = [] → exec .stepSearchSync s = .next { s with reply := .taken 0 }) ∧
    (∀ (x : Symbol) (rest : List Symbol) (a : Word), s.input = x :: rest →
      a = (s.acc <<< 1) ||| (if x then 0 else 1) →
      exec .stepSearchSync s = .next
        { s with
          acc := a
          state := if Codec.hamming a 0x7CD215D8 ≤ 2 then .synched else s.state
          wordCount := if Codec.hamming a 0x7CD215D8 ≤ 2 then 0 else s.wordCount
          input := rest
          consumed := s.consumed + 1
          trace := s.trace ++ [.symbols [x]]
          reply := .taken 1 })

/-- R113: too few symbols; a match at distance at most 2; a miss, with the partial record exactly when the emission
predicate holds. -/
def Obligations.StepSyncReacquiresOrLosesSync : Prop :=
  ∀ s : State,
    (s.input.length < 32 → exec .stepSync s = .next { s with reply := .taken 0 }) ∧
    (∀ (syms rest : List Symbol) (w : Word), s.input = syms ++ rest → syms.length = 32 →
      w = wordOfSymbols syms →
      (Codec.hamming w 0x7CD215D8 ≤ 2 →
        exec .stepSync s = .next
          { s with
            state := .synched
            wordCount := 0
            input := rest
            consumed := s.consumed + 32
            trace := s.trace ++ [.symbols syms]
            reply := .taken 32 }) ∧
      (2 < Codec.hamming w 0x7CD215D8 → (s.msg.address ≠ 0 ∨ s.msg.text ≠ []) →
        exec .stepSync s = .next
          { s with
            state := s.cfg.initialState
            acc := 0
            msg :=
              { active := false, address := 0, function := 0, text := [], numeric := [], treg := 0,
                tcnt := 0 }
            out := s.out ++
              [{ address := s.msg.address, function := s.msg.function, text := s.msg.text,
                 numeric := s.msg.numeric, endOfMessage := false, channel := s.cfg.channel }]
            ev := s.ev ++ [{ kind := .syncMiss, info := .word w }]
            input := rest
            consumed := s.consumed + 32
            trace := s.trace ++
              [.symbols syms, .event { kind := .syncMiss, info := .word w },
               .record
                 { address := s.msg.address, function := s.msg.function, text := s.msg.text,
                   numeric := s.msg.numeric, endOfMessage := false, channel := s.cfg.channel }]
            reply := .taken 32 }) ∧
      (2 < Codec.hamming w 0x7CD215D8 → s.msg.address = 0 → s.msg.text = [] →
        exec .stepSync s = .next
          { s with
            state := s.cfg.initialState
            acc := 0
            msg :=
              { active := false, address := 0, function := 0, text := [], numeric := [], treg := 0,
                tcnt := 0 }
            ev := s.ev ++ [{ kind := .syncMiss, info := .word w }]
            input := rest
            consumed := s.consumed + 32
            trace := s.trace ++ [.symbols syms, .event { kind := .syncMiss, info := .word w }]
            reply := .taken 32 }))

/-- R114: too few symbols; an uncorrectable word, which is the UNCORRECTABLE class and is not counted; a correctable
word, which raises CORRECTED if correction changed it, then is its class's operation at the word index before the
increment, and is counted, the sixteenth ending the batch. -/
def Obligations.StepSynchedCorrectsClassifiesAndCounts : Prop :=
  ∀ s : State,
    (s.input.length < 32 → exec .stepSynched s = .next { s with reply := .taken 0 }) ∧
    (∀ (syms rest : List Symbol) (w : Word) (r : State), s.input = syms ++ rest → syms.length = 32 →
      w = wordOfSymbols syms →
      r = { s with
            input := rest
            consumed := s.consumed + 32
            trace := s.trace ++ [.symbols syms] } →
      (Codec.syndrome (Codec.correct w) ≠ 0 →
        ∃ u : State, exec (.uncorrectable w) r = .next u ∧
          exec .stepSynched s = .next { u with reply := .taken 32 }) ∧
      (Codec.syndrome (Codec.correct w) = 0 → Codec.correct w = w →
        ∃ u : State, exec (classifyCorrected w) r = .next u ∧
          exec .stepSynched s = .next
            { u with
              wordCount := s.wordCount + 1
              state := if s.wordCount + 1 = 16 then .sync else s.state
              reply := .taken 32 }) ∧
      (Codec.syndrome (Codec.correct w) = 0 → Codec.correct w ≠ w →
        ∃ u : State,
          exec (classifyCorrected (Codec.correct w))
            { r with
              ev := r.ev ++
                [{ kind := .corrected, info := .count (Codec.hamming (Codec.correct w) w) }]
              trace := r.trace ++
                [.event
                  { kind := .corrected, info := .count (Codec.hamming (Codec.correct w) w) }] } =
            .next u ∧
          exec .stepSynched s = .next
            { u with
              wordCount := s.wordCount + 1
              state := if s.wordCount + 1 = 16 then .sync else s.state
              reply := .taken 32 }))

/-! ## Word classes -/

/-- R154: raise UNCORRECTABLE with the word as read, flush, acquisition restart, in that order. -/
def Obligations.UncorrectableWordLosesSync : Prop :=
  ∀ (w : Word) (s : State),
    ((s.msg.address ≠ 0 ∨ s.msg.text ≠ []) →
      exec (.uncorrectable w) s = .next
        { s with
          state := s.cfg.initialState
          acc := 0
          msg :=
            { active := false, address := 0, function := 0, text := [], numeric := [], treg := 0,
              tcnt := 0 }
          out := s.out ++
            [{ address := s.msg.address, function := s.msg.function, text := s.msg.text,
               numeric := s.msg.numeric, endOfMessage := false, channel := s.cfg.channel }]
          ev := s.ev ++ [{ kind := .uncorrectable, info := .word w }]
          trace := s.trace ++
            [.event { kind := .uncorrectable, info := .word w },
             .record
               { address := s.msg.address, function := s.msg.function, text := s.msg.text,
                 numeric := s.msg.numeric, endOfMessage := false, channel := s.cfg.channel }]
          reply := .nothing }) ∧
    (s.msg.address = 0 → s.msg.text = [] →
      exec (.uncorrectable w) s = .next
        { s with
          state := s.cfg.initialState
          acc := 0
          msg :=
            { active := false, address := 0, function := 0, text := [], numeric := [], treg := 0,
              tcnt := 0 }
          ev := s.ev ++ [{ kind := .uncorrectable, info := .word w }]
          trace := s.trace ++ [.event { kind := .uncorrectable, info := .word w }]
          reply := .nothing })

/-- R135: the sticky flag and the event; the message state is not changed. -/
def Obligations.SyncInBatchIsLoggedAndIgnored : Prop :=
  ∀ s : State,
    exec .syncInBatch s = .next
      { s with
        syncInBatchSeen := true
        ev := s.ev ++ [{ kind := .syncInBatch, info := .count s.wordCount }]
        trace := s.trace ++ [.event { kind := .syncInBatch, info := .count s.wordCount }]
        reply := .nothing }

/-- R129: an active message is emitted with end_of_message = true if E holds, and reset; with none active, only the
event. -/
def Obligations.IdleEndsTheActiveMessage : Prop :=
  ∀ s : State,
    (s.msg.active = true → (s.msg.address ≠ 0 ∨ s.msg.text ≠ []) →
      exec .idle s = .next
        { s with
          msg :=
            { active := false, address := 0, function := 0, text := [], numeric := [], treg := 0,
              tcnt := 0 }
          out := s.out ++
            [{ address := s.msg.address, function := s.msg.function, text := s.msg.text,
               numeric := s.msg.numeric, endOfMessage := true, channel := s.cfg.channel }]
          trace := s.trace ++
            [.record
              { address := s.msg.address, function := s.msg.function, text := s.msg.text,
                numeric := s.msg.numeric, endOfMessage := true, channel := s.cfg.channel }]
          reply := .nothing }) ∧
    (s.msg.active = true → s.msg.address = 0 → s.msg.text = [] →
      exec .idle s = .next
        { s with
          msg :=
            { active := false, address := 0, function := 0, text := [], numeric := [], treg := 0,
              tcnt := 0 }
          reply := .nothing }) ∧
    (s.msg.active = false →
      exec .idle s = .next
        { s with
          ev := s.ev ++ [{ kind := .idleNoMessage, info := .word 0x7A89C197 }]
          trace := s.trace ++ [.event { kind := .idleNoMessage, info := .word 0x7A89C197 }]
          reply := .nothing })

/-- R130: the payload, bits 30..11, feeds both decoders, whether or not a message is active. -/
def Obligations.DataWordFeedsBothDecoders : Prop :=
  ∀ (c : Word) (s : State), ∃ u v : State,
    exec (.textFeed (c.extractLsb' 11 20)) s = .next u ∧
    exec (.numericFeed (c.extractLsb' 11 20)) u = .next v ∧
    exec (.data c) s = .next v

/-- R134, R67, R68: an address word at word index i drops the previous message and starts a new one, with address
(c[30:13] << 3) | (i div 2) and function c[12:11]. The word index is 0 to 15. -/
def Obligations.AddressWordStartsAMessage : Prop :=
  ∀ (c : Word) (s : State), s.wordCount < 16 →
    exec (.address c) s = .next
      { s with
        msg :=
          { active := true
            address :=
              ((c.extractLsb' 13 18).setWidth 21 <<< 3) ||| BitVec.ofNat 21 (s.wordCount / 2)
            function := c.extractLsb' 11 2
            text := []
            numeric := []
            treg := 0
            tcnt := 0 }
        reply := .nothing }

/-! ## Assembler operations -/

/-- R131, R69: the decoder cuts the stream of its held bits and the payload's, p[19] first, into characters of seven bits,
the first bit of a character being its bit 0; what is left over stays held. -/
def Obligations.TextFeedCutsSevenBitCharacters : Prop :=
  ∀ (p : Payload) (s : State), s.msg.tcnt ≤ 6 →
    ∃ (chars : List CharCode) (reg : BitVec 7),
      exec (.textFeed p) s = .next
        { s with
          msg :=
            { s.msg with
              text := s.msg.text ++ chars
              treg := reg
              tcnt := (s.msg.tcnt + 20) % 7 }
          reply := .nothing } ∧
      chars.length = (s.msg.tcnt + 20) / 7 ∧
      (∀ q b : Nat, q < chars.length → b < 7 →
        (chars.getD q 0).getLsbD b = textStream s.msg p (7 * q + b)) ∧
      (∀ b : Nat, b < 7 → reg.getLsbD b = p.getLsbD (6 - b))

/-- R133, R70: five 4-bit codes, most significant nibble first, bits as written, each the index of its character in
NUMERIC_TABLE (R139). -/
def Obligations.NumericFeedAppendsFiveNibbles : Prop :=
  ∀ (p : Payload) (s : State), ∃ d4 d3 d2 d1 d0 : DigitCode,
    exec (.numericFeed p) s = .next
      { s with msg := { s.msg with numeric := s.msg.numeric ++ [d4, d3, d2, d1, d0] },
               reply := .nothing } ∧
    p.toNat = d4.toNat * 16 ^ 4 + d3.toNat * 16 ^ 3 + d2.toNat * 16 ^ 2 + d1.toNat * 16 + d0.toNat ∧
    (∀ d : DigitCode,
      ['0', '1', '2', '3', '4', '5', '6', '7', '8', '9', '*', 'U', ' ', '-', ')', '('][d.toNat]? =
        some (renderDigit d)) ∧
    renderNumeric (s.msg.numeric ++ [d4, d3, d2, d1, d0]) =
      renderNumeric s.msg.numeric ++
        [renderDigit d4, renderDigit d3, renderDigit d2, renderDigit d1, renderDigit d0]

/-- R127, R53: one record, a copy of the message state with the channel label; the message state is not changed. -/
def Obligations.EmitAppendsOneRecord : Prop :=
  ∀ (eom : Bool) (s : State) (r : PagerMessage),
    r = { address := s.msg.address, function := s.msg.function, text := s.msg.text,
          numeric := s.msg.numeric, endOfMessage := eom, channel := s.cfg.channel } →
    exec (.emit eom) s = .next
      { s with out := s.out ++ [r], trace := s.trace ++ [.record r], reply := .nothing }

/-- R106: shifts all held bits left by one, inserts the new bit at the low end, masks to 32 bits. -/
def Obligations.ShiftInInsertsAtTheLowEnd : Prop :=
  ∀ (b : Bool) (s : State), ∃ a : Word,
    exec (.shiftIn b) s = .next { s with acc := a, reply := .nothing } ∧
    a.toNat = (2 * s.acc.toNat + b.toNat) % 2 ^ 32

/-- R107: true exactly when the low L bits are PA_L or PB_L, that is, when the last L bits strictly alternate. -/
def Obligations.PreambleMatchIsStrictAlternation : Prop :=
  ∀ (a : Word) (s : State), 2 ≤ s.cfg.preambleLen → s.cfg.preambleLen ≤ 32 →
    ∃ m : Bool,
      exec (.preambleMatch a) s = .next { s with reply := .bit m } ∧
      (m = true ↔
        (∀ i : Nat, i < s.cfg.preambleLen → a.getLsbD i = decide (i % 2 = 1)) ∨
        (∀ i : Nat, i < s.cfg.preambleLen → a.getLsbD i = decide (i % 2 = 0))) ∧
      (m = true ↔
        ∀ i : Nat, i + 1 < s.cfg.preambleLen → a.getLsbD i ≠ a.getLsbD (i + 1))

/-! ## Codec -/

/-- R86, R87, R88: POPCOUNT is the number of 1 bits, ODD_PARITY tells whether it is odd, HAMMING is the number of
positions where two words differ. -/
def Obligations.CountsAreOfSetBits : Prop :=
  ∀ (a b : Word) (s : State),
    exec (.popcount a) s =
      .next { s with reply := .number ((List.range 32).countP fun j => a.getLsbD j) } ∧
    exec (.oddParity a) s =
      .next { s with reply := .bit (((List.range 32).countP fun j => a.getLsbD j) % 2 == 1) } ∧
    exec (.hamming a b) s =
      .next { s with reply := .number ((List.range 32).countP fun j => a.getLsbD j != b.getLsbD j) }

/-- R89: the remainder of w[31:1] on division by g(x) over GF(2), with the odd parity of the whole word in bit 10. -/
def Obligations.SyndromeIsRemainderAndParity : Prop :=
  ∀ (w : Word) (s : State), ∃ (q : BitVec 21) (r : Word),
    r.toNat < 2 ^ 10 ∧
    w >>> 1 =
      (List.range 21).foldl (fun acc i => if q.getLsbD i then acc ^^^ (0x769#32 <<< i) else acc) r ∧
    exec (.syndrome w) s = .next
      { s with
        reply := .word (if Codec.popcount w % 2 = 1 then r ||| 0x400 else r) }

/-- R90(b): SYNDROME is linear over GF(2). -/
def Obligations.SyndromeIsLinear : Prop :=
  ∀ a b : Word, Codec.syndrome (a ^^^ b) = Codec.syndrome a ^^^ Codec.syndrome b

/-- R91, R92: CORRECT answers the unique valid word within distance 2 of w, if there is any, else w. -/
def Obligations.CorrectFindsTheUniqueNearWord : Prop :=
  ∀ (w : Word) (s : State), ∃ c : Word,
    exec (.correct w) s = .next { s with reply := .word c } ∧
    ((Codec.syndrome c = 0 ∧ Codec.hamming c w ≤ 2 ∧
        ∀ v : Word, Codec.syndrome v = 0 → Codec.hamming v w ≤ 2 → v = c) ∨
      (c = w ∧ ∀ v : Word, Codec.syndrome v = 0 → 2 < Codec.hamming v w))

/-- R93: one or two errors (or none) are corrected, three are always detected; four errors are uncorrectable or miscorrected
to a different valid word at distance 2, five are uncorrectable or miscorrected by one flip; and four or five of the six
one bits of a weight-6 valid word are miscorrected. -/
def Obligations.CorrectionGuarantee : Prop :=
  (∀ c e : Word, Codec.syndrome c = 0 → Codec.popcount e ≤ 2 → Codec.correct (c ^^^ e) = c) ∧
  (∀ c e : Word, Codec.syndrome c = 0 → Codec.popcount e = 3 →
    Codec.syndrome (Codec.correct (c ^^^ e)) ≠ 0) ∧
  (∀ c e v : Word, Codec.syndrome c = 0 → Codec.popcount e = 4 → Codec.syndrome v = 0 →
    Codec.popcount v = 6 → e &&& v = e → Codec.correct (c ^^^ e) = c ^^^ v) ∧
  (∀ c e v : Word, Codec.syndrome c = 0 → Codec.popcount e = 5 → Codec.syndrome v = 0 →
    Codec.popcount v = 6 → e &&& v = e → Codec.correct (c ^^^ e) = c ^^^ v) ∧
  (∀ c e : Word, Codec.syndrome c = 0 → Codec.popcount e = 4 →
    Codec.uncorrectable (c ^^^ e) = true ∨
    (Codec.syndrome (Codec.correct (c ^^^ e)) = 0 ∧ Codec.correct (c ^^^ e) ≠ c ∧
      Codec.hamming (Codec.correct (c ^^^ e)) (c ^^^ e) = 2)) ∧
  (∀ c e : Word, Codec.syndrome c = 0 → Codec.popcount e = 5 →
    Codec.uncorrectable (c ^^^ e) = true ∨
    (Codec.syndrome (Codec.correct (c ^^^ e)) = 0 ∧ Codec.correct (c ^^^ e) ≠ c ∧
      Codec.hamming (Codec.correct (c ^^^ e)) (c ^^^ e) = 1))

/-- R90(d): the minimum distance of the valid words is 6. -/
def Obligations.ValidWordsAreSixApart : Prop :=
  (∀ a b : Word, Codec.syndrome a = 0 → Codec.syndrome b = 0 → a ≠ b → 6 ≤ Codec.hamming a b) ∧
  (∃ a b : Word, Codec.syndrome a = 0 ∧ Codec.syndrome b = 0 ∧ Codec.hamming a b = 6)

/-- R64, R80: for given message bits there is exactly one valid word, and ENC gives it. -/
def Obligations.EncIsTheOneValidWord : Prop :=
  (∀ d : BitVec 21, Codec.syndrome (enc d) = 0 ∧ (enc d).extractLsb' 11 21 = d) ∧
  (∀ w : Word, Codec.syndrome w = 0 → enc (w.extractLsb' 11 21) = w)

/-! ## Bit order and encodings -/

/-- R48: the first symbol read goes to bit 31 and the last to bit 0, each inverted, and the word equals what the
accumulator would hold after the same symbols. -/
def Obligations.WordReadIsTheAccumulatorsOrder : Prop :=
  ∀ (syms : List Symbol) (acc : Word), syms.length = 32 →
    (∀ j : Nat, j < 32 → (wordOfSymbols syms).getLsbD (31 - j) = !syms.getD j false) ∧
    accAfter acc syms = wordOfSymbols syms ∧
    symbolsOfWord (wordOfSymbols syms) = syms

/-- R72: every word read in `Synched` falls into exactly one class, tried in this order on its correction. -/
def Obligations.WordClassesInOrder : Prop :=
  ∀ w c : Word, c = Codec.correct w →
    decode { space := .wordClass, bits := c.toNat, operand := .absent } =
      .ok (if Codec.syndrome c ≠ 0 then .uncorrectable w
        else if c = 0x7CD215D8 then .syncInBatch
        else if c = 0x7A89C197 then .idle
        else if c.getLsbD 31 then .data c
        else .address c)

/-- Every well-formed operation survives encoding and decoding, with every operand at every value. -/
def Obligations.DecodeInvertsEncode : Prop :=
  ∀ i : Instr, wellFormed i = true → decode (encode i) = .ok i

/-- What the decoder accepts is well formed. -/
def Obligations.DecodedIsWellFormed : Prop :=
  ∀ (r : Request) (i : Instr), decode r = .ok i → wellFormed i = true

/-- R73, R76, R72, I11: the codes of the control states and of the host operations, each host operation with its operand,
and the words of three word classes; codes 5, 6 and 7 select no step. That a request says where its bits are read is the
model's choice: log entry 3. -/
def Obligations.CodesSelectStepsAndHostOperations : Prop :=
  decode { space := .stateStep, bits := 0, operand := .absent } = .ok .stepSps ∧
  decode { space := .stateStep, bits := 1, operand := .absent } = .ok .stepSpe ∧
  decode { space := .stateStep, bits := 2, operand := .absent } = .ok .stepSync ∧
  decode { space := .stateStep, bits := 3, operand := .absent } = .ok .stepSearchSync ∧
  decode { space := .stateStep, bits := 4, operand := .absent } = .ok .stepSynched ∧
  (∀ n : Nat, 5 ≤ n → ∃ e, decode { space := .stateStep, bits := n, operand := .absent } = .error e) ∧
  decode
      { space := .hostOp, bits := 0
        operand := .config
          { initialCode := 3, preambleLen := 8, channel := "ch1", symbolRate := ⟨1, 0⟩,
            debugInit := true } } =
    .ok (.reset
      { initialState := .searchSync, preambleLen := 8, channel := "ch1", symbolRate := ⟨1, 0⟩,
        debugInit := true }) ∧
  decode { space := .hostOp, bits := 1, operand := .symbols [0, 1, 1] } =
    .ok (.work [false, true, true]) ∧
  decode { space := .hostOp, bits := 2, operand := .bit 1 } = .ok (.setDebug true) ∧
  decode { space := .hostOp, bits := 3, operand := .absent } = .ok .status ∧
  decode { space := .wordClass, bits := 0x7CD215D8, operand := .absent } = .ok .syncInBatch ∧
  decode { space := .wordClass, bits := 0x899200DB, operand := .absent } = .ok (.data 0x899200DB) ∧
  decode { space := .wordClass, bits := 0x0013439A, operand := .absent } = .ok (.address 0x0013439A)

/-- A WORK request with a symbol other than 0 and 1 is refused (R46, R168), and one without is WORK. That one such symbol
refuses the whole request, by the value's name, is the model's deduction, and not the rules' words: log entry 13. That
the request stands in `pending` is the model's choice: log entry 1. -/
def Obligations.NonBitSymbolsAreRefused : Prop :=
  ∀ (buf : List Nat) (s : State) (rest : List HostAction), s.placed = none →
    s.pending = .operation 1 (.symbols buf) :: rest →
    ((∃ v ∈ buf, 1 < v) → ∃ v ∈ buf, 1 < v ∧ step s = .refused (.rejected (.symbolNotBit v))) ∧
    ((∀ v ∈ buf, v ≤ 1) →
      step s = exec (.work (buf.map fun v => v == 1)) { s with pending := rest })

/-! ## The machine's step -/

/-- With nothing placed, a step takes the host's next action off the list and runs it: a host operation is executed, a
request that is none is refused, a removal takes records from the front of `out` or events from `ev` (R100); with nothing
pending the block is idle and keeps all its state (R167). A placed operation runs once, before the host's next action.
That host actions wait in `pending`, that an operation can be placed, and that the events removed are the oldest, are
the model's choices: log entries 1, 3 and 16. -/
def Obligations.StepRunsTheNextAction : Prop :=
  ∀ (s : State) (rest : List HostAction),
    (s.placed = none →
      (∀ (code : Nat) (operand : Operand) (i : Instr), s.pending = .operation code operand :: rest →
        decode { space := .hostOp, bits := code, operand := operand } = .ok i →
        step s = exec i { s with pending := rest }) ∧
      (∀ (code : Nat) (operand : Operand) (e : DecodeError),
        s.pending = .operation code operand :: rest →
        decode { space := .hostOp, bits := code, operand := operand } = .error e →
        step s = .refused (.rejected e)) ∧
      (∀ n : Nat, s.pending = .takeRecords n :: rest →
        step s = .next
          { s with out := s.out.drop n, reply := .records (s.out.take n), pending := rest }) ∧
      (∀ n : Nat, s.pending = .takeEvents n :: rest →
        step s = .next
          { s with ev := s.ev.drop n, reply := .events (s.ev.take n), pending := rest }) ∧
      (s.pending = [] → step s = .next s)) ∧
    (∀ r : Request, s.placed = some r →
      (∀ i : Instr, decode r = .ok i → step s = exec i { s with placed := none }) ∧
      (∀ e : DecodeError, decode r = .error e → step s = .refused (.rejected e)))

/-- A table word placed for fetching is the operation that the next step runs. Placing a word, and reading a bare word by
its width, are the model's choices, and no rule's: log entries 1 and 3. -/
def Obligations.FetchWordIsRunNext : Prop :=
  ∀ (s : State) (nbits w : Nat) (i : Instr), decodeTableWord nbits w = some i →
    step (s.withFetchWord nbits w) = exec i { s with placed := none }

/-! ## Invariants and whole-machine rules -/

/-- The invariant holds right after reset. -/
def Obligations.ResetSatisfiesTheInvariant : Prop := State.reset.Inv

/-- Every step of a machine whose host does what the spec lets it do keeps the invariant: R24, R30, R32, R33, R53, R122,
R140, R151. -/
def Obligations.StepKeepsTheInvariant : Prop :=
  ∀ s t : State, s.Inv → step s = .next t → t.Inv

/-- R140, R54: a step emits at most one record; it satisfies E, is the record of the message before the step, and leaves
the message state at its reset value; it has end_of_message = true only for an IDLE word with an active message, and
false only on loss of sync. -/
def Obligations.AStepEmitsAtMostOneRecord : Prop :=
  ∀ s : State,
    (automatonStep s).2.out = s.out ∨
    ∃ r : PagerMessage,
      (automatonStep s).2.out = s.out ++ [r] ∧
      (r.address ≠ 0 ∨ r.text ≠ []) ∧
      r = { address := s.msg.address, function := s.msg.function, text := s.msg.text,
            numeric := s.msg.numeric, endOfMessage := r.endOfMessage, channel := s.cfg.channel } ∧
      (automatonStep s).2.msg =
        { active := false, address := 0, function := 0, text := [], numeric := [], treg := 0,
          tcnt := 0 } ∧
      (r.endOfMessage = true →
        s.state = .synched ∧ Codec.correct (wordOfSymbols (s.input.take 32)) = 0x7A89C197 ∧
        s.msg.active = true) ∧
      (r.endOfMessage = false →
        (s.state = .sync ∨ s.state = .synched) ∧
        (automatonStep s).2.state = s.cfg.initialState ∧ (automatonStep s).2.acc = 0)

/-- The transition table of 41_sync_automaton.md section 4: which control state each step leads to, and when. -/
def Obligations.TransitionRelation : Prop :=
  ∀ s : State, (automatonStep s).1 ≠ 0 →
    (s.state = .searchPreambleStart →
      (automatonStep s).2.state =
        (if preambleMatches s.cfg.preambleLen (automatonStep s).2.acc then .searchPreambleEnd
         else .searchPreambleStart)) ∧
    (s.state = .searchPreambleEnd →
      (automatonStep s).2.state =
        (if preambleMatches s.cfg.preambleLen (automatonStep s).2.acc then .searchPreambleEnd
         else .sync)) ∧
    (s.state = .searchSync →
      (automatonStep s).2.state =
        (if Codec.hamming (automatonStep s).2.acc 0x7CD215D8 ≤ 2 then .synched else .searchSync)) ∧
    (s.state = .sync →
      (automatonStep s).2.state =
        (if Codec.hamming (wordOfSymbols (s.input.take 32)) 0x7CD215D8 ≤ 2 then .synched
         else s.cfg.initialState)) ∧
    (s.state = .synched →
      (automatonStep s).2.state =
        (if Codec.uncorrectable (wordOfSymbols (s.input.take 32)) then s.cfg.initialState
         else if s.wordCount + 1 = 16 then .sync else .synched))

/-- R23, R117: a word step leaves the accumulator alone, but for the acquisition restart, which clears it. -/
def Obligations.WordStepsLeaveTheAccumulator : Prop :=
  ∀ s : State,
    (s.state = .sync → 32 ≤ s.input.length →
      (automatonStep s).2.acc =
        (if Codec.hamming (wordOfSymbols (s.input.take 32)) 0x7CD215D8 ≤ 2 then s.acc else 0)) ∧
    (s.state = .synched → 32 ≤ s.input.length →
      (automatonStep s).2.acc =
        (if Codec.uncorrectable (wordOfSymbols (s.input.take 32)) then 0 else s.acc))

/-- R31, R57, R172, R173: no operation but RESET changes a configuration register or clears `sync_in_batch_seen`, and none
but RESET and SET_DEBUG changes `debug`. -/
def Obligations.OnlyResetReconfigures : Prop :=
  ∀ (i : Instr) (s : State), (∀ c, i ≠ .reset c) →
    ∃ t : State, exec i s = .next t ∧ t.cfg = s.cfg ∧
      (s.syncInBatchSeen = true → t.syncInBatchSeen = true) ∧
      ((∀ v, i ≠ .setDebug v) → t.debug = s.debug) ∧ t.pending = s.pending ∧ t.placed = s.placed

/-- R35, R36, R164: no operation but RESET, SET_DEBUG and STATUS reads or writes `debug` or `cfg.symbol_rate`: with other
values there, everything else comes out the same. -/
def Obligations.DebugAndRateHaveNoEffect : Prop :=
  ∀ (i : Instr) (s : State) (v : Bool) (rate : SymbolRate),
    (∀ c, i ≠ .reset c) → (∀ b, i ≠ .setDebug b) → i ≠ .status →
    ∃ t : State, exec i s = .next t ∧ exec i (withUnread v rate s) = .next (withUnread v rate t)

/-- R55, R56: everything an operation other than RESET consumes, raises and emits stands, in one order, in the trace; the
queues and the counter are what that order says; and a WORK consumes from the front of its buffer. -/
def Obligations.TraceIsTheTotalOrder : Prop :=
  ∀ (i : Instr) (s : State), (∀ c, i ≠ .reset c) →
    ∃ (t : State) (d : List Observation),
      exec i s = .next t ∧ t.trace = s.trace ++ d ∧
      t.ev = s.ev ++ eventsOf d ∧ t.out = s.out ++ recordsOf d ∧
      t.consumed = s.consumed + (symbolsOf d).length ∧
      (∀ buf, i = .work buf → ∃ n, t.reply = .count n ∧ symbolsOf d = buf.take n)

/-- R121: from entry into `Synched`, n words none of which is uncorrectable leave the automaton in `Synched` with the count
n, and exactly the sixteenth brings it to `Sync`, whatever the words' classes; an uncorrectable word at any index k sends
it to INITIAL_STATE instead, and is not counted. -/
def Obligations.BatchBoundary : Prop :=
  ∀ (buf : List Symbol) (s : State), s.state = .synched → s.wordCount = 0 →
    (∀ n : Nat, n ≤ 16 → buf.length = 32 * n →
      (∀ k, k < n → Codec.uncorrectable (wordAt buf k) = false) →
      ∃ t : State, exec (.work buf) s = .next t ∧ t.reply = .count (32 * n) ∧
        t.state = (if n = 16 then .sync else .synched) ∧ t.wordCount = n ∧ t.acc = s.acc) ∧
    (∀ k : Nat, k < 16 → buf.length = 32 * (k + 1) →
      (∀ j, j < k → Codec.uncorrectable (wordAt buf j) = false) →
      Codec.uncorrectable (wordAt buf k) = true →
      ∃ t : State, exec (.work buf) s = .next t ∧ t.reply = .count (32 * (k + 1)) ∧
        t.state = s.cfg.initialState ∧ t.wordCount = k ∧ t.acc = 0)

/-- R112: if the stored bits end in the SYNC word and no earlier window is within distance 2 of it, the step that
consumes the SYNC's last symbol moves the automaton to `Synched`; the next symbol is the first of word index 0. -/
def Obligations.AcquisitionAtTheLastSyncSymbol : Prop :=
  ∀ (noise more : List Symbol) (s : State), s.state = .searchSync → more.length < 32 →
    (∀ k : Nat, 0 < k → k < noise.length + 32 →
      2 < Codec.hamming (accAfter s.acc ((noise ++ symbolsOfWord 0x7CD215D8).take k)) 0x7CD215D8) →
    ∃ t : State,
      exec (.work (noise ++ symbolsOfWord 0x7CD215D8 ++ more)) s = .next t ∧
      t.reply = .count (noise.length + 32) ∧ t.state = .synched ∧ t.wordCount = 0 ∧
      t.acc = 0x7CD215D8 ∧ t.msg = s.msg ∧ t.out = s.out ∧ t.ev = s.ev

/-- R118: after a standard preamble the first SYNC bit breaks the alternation, the `Sync` read is misaligned and misses,
and preamble-search mode returns to `SearchPreambleStart`. -/
def Obligations.PreambleModeMissesAStandardSync : Prop :=
  ∀ (s : State) (x : Symbol), s.state = .searchPreambleEnd → s.acc = 0xAAAAAAAA →
    s.cfg.preambleLen = 32 → s.cfg.initialState = .searchPreambleStart →
    ∃ (t : State) (w : Word),
      exec (.work (symbolsOfWord 0x7CD215D8 ++ [x])) s = .next t ∧
      t.reply = .count 33 ∧ t.state = .searchPreambleStart ∧ t.acc = 0 ∧
      t.ev = s.ev ++ [{ kind := .syncMiss, info := .word w }] ∧
      Codec.hamming w 0x7CD215D8 = (if x then 16 else 17)

/-- R163, R173, R170: an operation on one instance does to it what it does to a lone one and leaves every other instance
alone; RESET of an absent instance constructs one, and no other operation is legal there; what a lone instance refuses, a
RESET with an illegal configuration among them, is refused without a successor, so every instance is left as it was.
That instances are named by positions in a list, without a last one, is the model's choice: log entry 11. -/
def Obligations.InstancesAreIndependent : Prop :=
  ∀ (k : Nat) (i : Instr) (b : Bank),
    (∀ s t : State, b.getD k none = some s → exec i s = .next t →
      ∃ b' : Bank, runInBank k i b = .next b' ∧ b'.getD k none = some t) ∧
    (∀ b' : Bank, runInBank k i b = .next b' → ∀ j : Nat, j ≠ k → b'.getD j none = b.getD j none) ∧
    (b.getD k none = none → (∀ c, i ≠ .reset c) → runInBank k i b = .refused .noInstance) ∧
    (∀ (c : Construction) (t : State), b.getD k none = none → exec (.reset c) State.reset = .next t →
      ∃ b' : Bank, runInBank k (.reset c) b = .next b' ∧ b'.getD k none = some t) ∧
    (∀ (s : State) (r : Refusal), b.getD k none = some s → exec i s = .refused r →
      runInBank k i b = .refused r) ∧
    (∀ (c : Construction) (r : Refusal), exec (.reset c) State.reset = .refused r →
      runInBank k (.reset c) b = .refused r)

/-- R180: a `Synched` step costs 2 SYNDROME evaluations for a valid word and 530, the worst case, for an uncorrectable
one. -/
def Obligations.CodecCostIsBounded : Prop :=
  ∀ w : Word,
    (Codec.syndrome w = 0 → synchedEvaluations w = 2 ∧ synchedIterations w = 42) ∧
    (Codec.uncorrectable w = true → synchedEvaluations w = 530 ∧ synchedIterations w = 11130) ∧
    synchedEvaluations w ≤ 530

/-- R100, R172, D1: the host can do exactly four things to an instance and remove records and events; with nothing placed, a
step that answers a next state is one of the four host operations, a removal, or idleness. No step places an
operation, so this stays so. That the events removed are the oldest is the model's choice: log entry 16. -/
def Obligations.HostReachesOnlyItsFourOperations : Prop :=
  ∀ s t : State, s.placed = none → step s = .next t →
    t.placed = none ∧
    ((s.pending = [] ∧ t = s) ∨
      ∃ rest : List HostAction,
        (∃ n, s.pending = .takeRecords n :: rest ∧
          t = { s with out := s.out.drop n, reply := .records (s.out.take n), pending := rest }) ∨
        (∃ n, s.pending = .takeEvents n :: rest ∧
          t = { s with ev := s.ev.drop n, reply := .events (s.ev.take n), pending := rest }) ∨
        ∃ (code : Nat) (operand : Operand) (i : Instr), s.pending = .operation code operand :: rest ∧
          isHostOperation i ∧ exec i { s with pending := rest } = .next t)

/-- R122: after a legal RESET, which control states the symbols of a WORK can bring about (by R120 several WORK calls bring
about no others). In direct-sync mode these are `SearchSync`, `Synched` and `Sync`, each of them. In preamble-search
mode they are the four others than `SearchSync`, each of them: R122 counts `SearchSync` too, which no step rule enters
in that mode (R108 to R117), and following the step rules there is the model's choice: log entry 17. -/
def Obligations.ReachableControlStates : Prop :=
  ∀ (c : Construction) (s : State), 2 ≤ c.preambleLen → c.preambleLen ≤ 32 →
    (c.initialState = .searchSync →
      ∃ t : State, exec (.reset c) s = .next t ∧
        ∀ x : ControlState,
          (∃ (buf : List Symbol) (u : State), exec (.work buf) t = .next u ∧ u.state = x) ↔
            x = .searchSync ∨ x = .synched ∨ x = .sync) ∧
    (c.initialState = .searchPreambleStart →
      ∃ t : State, exec (.reset c) s = .next t ∧
        ∀ x : ControlState,
          (∃ (buf : List Symbol) (u : State), exec (.work buf) t = .next u ∧ u.state = x) ↔
            x = .searchPreambleStart ∨ x = .searchPreambleEnd ∨ x = .sync ∨ x = .synched)

/-- R122: with a legal initial state, `Sync` is entered only from `SearchPreambleEnd` or at the end of a 16-word batch,
`Synched` only from `SearchSync` or `Sync`, on a SYNC match, and from then on the next word is that of index 0. -/
def Obligations.EntriesIntoSyncAndSynched : Prop :=
  ∀ s : State, (s.cfg.initialState = .searchSync ∨ s.cfg.initialState = .searchPreambleStart) →
    ((automatonStep s).2.state = .sync → s.state ≠ .sync →
      s.state = .searchPreambleEnd ∨
      (s.state = .synched ∧ s.wordCount = 15 ∧ (automatonStep s).2.wordCount = 16)) ∧
    ((automatonStep s).2.state = .synched → s.state ≠ .synched →
      (automatonStep s).2.wordCount = 0 ∧
      ((s.state = .searchSync ∧ Codec.hamming (automatonStep s).2.acc 0x7CD215D8 ≤ 2) ∨
        (s.state = .sync ∧ Codec.hamming (wordOfSymbols (s.input.take 32)) 0x7CD215D8 ≤ 2)))
end

