-- ==== Sys2Proof/Laws/State.lean ====
section
/-! SUPPORT. One lemma per field per shared update of the state, each true by unfolding
that one update: later proofs never unfold a record update. -/

namespace Sys2Proof.Machine

/-! ## answer -/

@[simp] theorem answer_state (r : Reply) (s : State) : (answer r s).state = s.state := rfl
@[simp] theorem answer_acc (r : Reply) (s : State) : (answer r s).acc = s.acc := rfl
@[simp] theorem answer_wordCount (r : Reply) (s : State) : (answer r s).wordCount = s.wordCount := rfl
@[simp] theorem answer_msg (r : Reply) (s : State) : (answer r s).msg = s.msg := rfl
@[simp] theorem answer_syncInBatchSeen (r : Reply) (s : State) : (answer r s).syncInBatchSeen = s.syncInBatchSeen := rfl
@[simp] theorem answer_debug (r : Reply) (s : State) : (answer r s).debug = s.debug := rfl
@[simp] theorem answer_cfg (r : Reply) (s : State) : (answer r s).cfg = s.cfg := rfl
@[simp] theorem answer_out (r : Reply) (s : State) : (answer r s).out = s.out := rfl
@[simp] theorem answer_ev (r : Reply) (s : State) : (answer r s).ev = s.ev := rfl
@[simp] theorem answer_input (r : Reply) (s : State) : (answer r s).input = s.input := rfl
@[simp] theorem answer_consumed (r : Reply) (s : State) : (answer r s).consumed = s.consumed := rfl
@[simp] theorem answer_trace (r : Reply) (s : State) : (answer r s).trace = s.trace := rfl
@[simp] theorem answer_reply (r : Reply) (s : State) : (answer r s).reply = r := rfl
@[simp] theorem answer_pending (r : Reply) (s : State) : (answer r s).pending = s.pending := rfl
@[simp] theorem answer_placed (r : Reply) (s : State) : (answer r s).placed = s.placed := rfl

/-! ## consume -/

@[simp] theorem consume_state (n : Nat) (s : State) : (consume n s).state = s.state := rfl
@[simp] theorem consume_acc (n : Nat) (s : State) : (consume n s).acc = s.acc := rfl
@[simp] theorem consume_wordCount (n : Nat) (s : State) : (consume n s).wordCount = s.wordCount := rfl
@[simp] theorem consume_msg (n : Nat) (s : State) : (consume n s).msg = s.msg := rfl
@[simp] theorem consume_syncInBatchSeen (n : Nat) (s : State) : (consume n s).syncInBatchSeen = s.syncInBatchSeen := rfl
@[simp] theorem consume_debug (n : Nat) (s : State) : (consume n s).debug = s.debug := rfl
@[simp] theorem consume_cfg (n : Nat) (s : State) : (consume n s).cfg = s.cfg := rfl
@[simp] theorem consume_out (n : Nat) (s : State) : (consume n s).out = s.out := rfl
@[simp] theorem consume_ev (n : Nat) (s : State) : (consume n s).ev = s.ev := rfl
@[simp] theorem consume_input (n : Nat) (s : State) : (consume n s).input = s.input.drop n := rfl
@[simp] theorem consume_consumed (n : Nat) (s : State) : (consume n s).consumed = s.consumed + n := rfl
@[simp] theorem consume_trace (n : Nat) (s : State) :
    (consume n s).trace = s.trace ++ [.symbols (s.input.take n)] := rfl
@[simp] theorem consume_reply (n : Nat) (s : State) : (consume n s).reply = s.reply := rfl
@[simp] theorem consume_pending (n : Nat) (s : State) : (consume n s).pending = s.pending := rfl
@[simp] theorem consume_placed (n : Nat) (s : State) : (consume n s).placed = s.placed := rfl

/-! ## appendRecord -/

@[simp] theorem appendRecord_state (r : PagerMessage) (s : State) : (appendRecord r s).state = s.state := rfl
@[simp] theorem appendRecord_acc (r : PagerMessage) (s : State) : (appendRecord r s).acc = s.acc := rfl
@[simp] theorem appendRecord_wordCount (r : PagerMessage) (s : State) :
    (appendRecord r s).wordCount = s.wordCount := rfl
@[simp] theorem appendRecord_msg (r : PagerMessage) (s : State) : (appendRecord r s).msg = s.msg := rfl
@[simp] theorem appendRecord_syncInBatchSeen (r : PagerMessage) (s : State) :
    (appendRecord r s).syncInBatchSeen = s.syncInBatchSeen := rfl
@[simp] theorem appendRecord_debug (r : PagerMessage) (s : State) : (appendRecord r s).debug = s.debug := rfl
@[simp] theorem appendRecord_cfg (r : PagerMessage) (s : State) : (appendRecord r s).cfg = s.cfg := rfl
@[simp] theorem appendRecord_out (r : PagerMessage) (s : State) : (appendRecord r s).out = s.out ++ [r] := rfl
@[simp] theorem appendRecord_ev (r : PagerMessage) (s : State) : (appendRecord r s).ev = s.ev := rfl
@[simp] theorem appendRecord_input (r : PagerMessage) (s : State) : (appendRecord r s).input = s.input := rfl
@[simp] theorem appendRecord_consumed (r : PagerMessage) (s : State) : (appendRecord r s).consumed = s.consumed := rfl
@[simp] theorem appendRecord_trace (r : PagerMessage) (s : State) :
    (appendRecord r s).trace = s.trace ++ [.record r] := rfl
@[simp] theorem appendRecord_reply (r : PagerMessage) (s : State) : (appendRecord r s).reply = s.reply := rfl
@[simp] theorem appendRecord_pending (r : PagerMessage) (s : State) : (appendRecord r s).pending = s.pending := rfl
@[simp] theorem appendRecord_placed (r : PagerMessage) (s : State) : (appendRecord r s).placed = s.placed := rfl

/-! ## raiseEvent -/

@[simp] theorem raiseEvent_state (e : Event) (s : State) : (raiseEvent e s).state = s.state := rfl
@[simp] theorem raiseEvent_acc (e : Event) (s : State) : (raiseEvent e s).acc = s.acc := rfl
@[simp] theorem raiseEvent_wordCount (e : Event) (s : State) : (raiseEvent e s).wordCount = s.wordCount := rfl
@[simp] theorem raiseEvent_msg (e : Event) (s : State) : (raiseEvent e s).msg = s.msg := rfl
@[simp] theorem raiseEvent_syncInBatchSeen (e : Event) (s : State) :
    (raiseEvent e s).syncInBatchSeen = s.syncInBatchSeen := rfl
@[simp] theorem raiseEvent_debug (e : Event) (s : State) : (raiseEvent e s).debug = s.debug := rfl
@[simp] theorem raiseEvent_cfg (e : Event) (s : State) : (raiseEvent e s).cfg = s.cfg := rfl
@[simp] theorem raiseEvent_out (e : Event) (s : State) : (raiseEvent e s).out = s.out := rfl
@[simp] theorem raiseEvent_ev (e : Event) (s : State) : (raiseEvent e s).ev = s.ev ++ [e] := rfl
@[simp] theorem raiseEvent_input (e : Event) (s : State) : (raiseEvent e s).input = s.input := rfl
@[simp] theorem raiseEvent_consumed (e : Event) (s : State) : (raiseEvent e s).consumed = s.consumed := rfl
@[simp] theorem raiseEvent_trace (e : Event) (s : State) : (raiseEvent e s).trace = s.trace ++ [.event e] := rfl
@[simp] theorem raiseEvent_reply (e : Event) (s : State) : (raiseEvent e s).reply = s.reply := rfl
@[simp] theorem raiseEvent_pending (e : Event) (s : State) : (raiseEvent e s).pending = s.pending := rfl
@[simp] theorem raiseEvent_placed (e : Event) (s : State) : (raiseEvent e s).placed = s.placed := rfl

/-! ## shiftIn -/

@[simp] theorem shiftIn_state (b : Bool) (s : State) : (shiftIn b s).state = s.state := rfl
@[simp] theorem shiftIn_acc (b : Bool) (s : State) : (shiftIn b s).acc = shiftBit s.acc b := rfl
@[simp] theorem shiftIn_wordCount (b : Bool) (s : State) : (shiftIn b s).wordCount = s.wordCount := rfl
@[simp] theorem shiftIn_msg (b : Bool) (s : State) : (shiftIn b s).msg = s.msg := rfl
@[simp] theorem shiftIn_syncInBatchSeen (b : Bool) (s : State) :
    (shiftIn b s).syncInBatchSeen = s.syncInBatchSeen := rfl
@[simp] theorem shiftIn_debug (b : Bool) (s : State) : (shiftIn b s).debug = s.debug := rfl
@[simp] theorem shiftIn_cfg (b : Bool) (s : State) : (shiftIn b s).cfg = s.cfg := rfl
@[simp] theorem shiftIn_out (b : Bool) (s : State) : (shiftIn b s).out = s.out := rfl
@[simp] theorem shiftIn_ev (b : Bool) (s : State) : (shiftIn b s).ev = s.ev := rfl
@[simp] theorem shiftIn_input (b : Bool) (s : State) : (shiftIn b s).input = s.input := rfl
@[simp] theorem shiftIn_consumed (b : Bool) (s : State) : (shiftIn b s).consumed = s.consumed := rfl
@[simp] theorem shiftIn_trace (b : Bool) (s : State) : (shiftIn b s).trace = s.trace := rfl
@[simp] theorem shiftIn_reply (b : Bool) (s : State) : (shiftIn b s).reply = s.reply := rfl
@[simp] theorem shiftIn_pending (b : Bool) (s : State) : (shiftIn b s).pending = s.pending := rfl
@[simp] theorem shiftIn_placed (b : Bool) (s : State) : (shiftIn b s).placed = s.placed := rfl

/-! ## msgReset -/

@[simp] theorem msgReset_state (s : State) : (msgReset s).state = s.state := rfl
@[simp] theorem msgReset_acc (s : State) : (msgReset s).acc = s.acc := rfl
@[simp] theorem msgReset_wordCount (s : State) : (msgReset s).wordCount = s.wordCount := rfl
@[simp] theorem msgReset_msg (s : State) :
    (msgReset s).msg = { active := false, address := 0, function := 0, text := [], numeric := [], treg := 0, tcnt := 0 } := rfl
@[simp] theorem msgReset_syncInBatchSeen (s : State) : (msgReset s).syncInBatchSeen = s.syncInBatchSeen := rfl
@[simp] theorem msgReset_debug (s : State) : (msgReset s).debug = s.debug := rfl
@[simp] theorem msgReset_cfg (s : State) : (msgReset s).cfg = s.cfg := rfl
@[simp] theorem msgReset_out (s : State) : (msgReset s).out = s.out := rfl
@[simp] theorem msgReset_ev (s : State) : (msgReset s).ev = s.ev := rfl
@[simp] theorem msgReset_input (s : State) : (msgReset s).input = s.input := rfl
@[simp] theorem msgReset_consumed (s : State) : (msgReset s).consumed = s.consumed := rfl
@[simp] theorem msgReset_trace (s : State) : (msgReset s).trace = s.trace := rfl
@[simp] theorem msgReset_reply (s : State) : (msgReset s).reply = s.reply := rfl
@[simp] theorem msgReset_pending (s : State) : (msgReset s).pending = s.pending := rfl
@[simp] theorem msgReset_placed (s : State) : (msgReset s).placed = s.placed := rfl

/-! ## setSyncInBatchSeen -/

@[simp] theorem setSyncInBatchSeen_state (s : State) : (setSyncInBatchSeen s).state = s.state := rfl
@[simp] theorem setSyncInBatchSeen_acc (s : State) : (setSyncInBatchSeen s).acc = s.acc := rfl
@[simp] theorem setSyncInBatchSeen_wordCount (s : State) : (setSyncInBatchSeen s).wordCount = s.wordCount := rfl
@[simp] theorem setSyncInBatchSeen_msg (s : State) : (setSyncInBatchSeen s).msg = s.msg := rfl
@[simp] theorem setSyncInBatchSeen_syncInBatchSeen (s : State) : (setSyncInBatchSeen s).syncInBatchSeen = true := rfl
@[simp] theorem setSyncInBatchSeen_debug (s : State) : (setSyncInBatchSeen s).debug = s.debug := rfl
@[simp] theorem setSyncInBatchSeen_cfg (s : State) : (setSyncInBatchSeen s).cfg = s.cfg := rfl
@[simp] theorem setSyncInBatchSeen_out (s : State) : (setSyncInBatchSeen s).out = s.out := rfl
@[simp] theorem setSyncInBatchSeen_ev (s : State) : (setSyncInBatchSeen s).ev = s.ev := rfl
@[simp] theorem setSyncInBatchSeen_input (s : State) : (setSyncInBatchSeen s).input = s.input := rfl
@[simp] theorem setSyncInBatchSeen_consumed (s : State) : (setSyncInBatchSeen s).consumed = s.consumed := rfl
@[simp] theorem setSyncInBatchSeen_trace (s : State) : (setSyncInBatchSeen s).trace = s.trace := rfl
@[simp] theorem setSyncInBatchSeen_reply (s : State) : (setSyncInBatchSeen s).reply = s.reply := rfl
@[simp] theorem setSyncInBatchSeen_pending (s : State) : (setSyncInBatchSeen s).pending = s.pending := rfl
@[simp] theorem setSyncInBatchSeen_placed (s : State) : (setSyncInBatchSeen s).placed = s.placed := rfl

/-! ## enterInitial -/

@[simp] theorem enterInitial_state (s : State) : (enterInitial s).state = s.cfg.initialState := rfl
@[simp] theorem enterInitial_acc (s : State) : (enterInitial s).acc = 0 := rfl
@[simp] theorem enterInitial_wordCount (s : State) : (enterInitial s).wordCount = s.wordCount := rfl
@[simp] theorem enterInitial_msg (s : State) : (enterInitial s).msg = s.msg := rfl
@[simp] theorem enterInitial_syncInBatchSeen (s : State) : (enterInitial s).syncInBatchSeen = s.syncInBatchSeen := rfl
@[simp] theorem enterInitial_debug (s : State) : (enterInitial s).debug = s.debug := rfl
@[simp] theorem enterInitial_cfg (s : State) : (enterInitial s).cfg = s.cfg := rfl
@[simp] theorem enterInitial_out (s : State) : (enterInitial s).out = s.out := rfl
@[simp] theorem enterInitial_ev (s : State) : (enterInitial s).ev = s.ev := rfl
@[simp] theorem enterInitial_input (s : State) : (enterInitial s).input = s.input := rfl
@[simp] theorem enterInitial_consumed (s : State) : (enterInitial s).consumed = s.consumed := rfl
@[simp] theorem enterInitial_trace (s : State) : (enterInitial s).trace = s.trace := rfl
@[simp] theorem enterInitial_reply (s : State) : (enterInitial s).reply = s.reply := rfl
@[simp] theorem enterInitial_pending (s : State) : (enterInitial s).pending = s.pending := rfl
@[simp] theorem enterInitial_placed (s : State) : (enterInitial s).placed = s.placed := rfl

/-! ## enterSynched -/

@[simp] theorem enterSynched_state (s : State) : (enterSynched s).state = .synched := rfl
@[simp] theorem enterSynched_acc (s : State) : (enterSynched s).acc = s.acc := rfl
@[simp] theorem enterSynched_wordCount (s : State) : (enterSynched s).wordCount = 0 := rfl
@[simp] theorem enterSynched_msg (s : State) : (enterSynched s).msg = s.msg := rfl
@[simp] theorem enterSynched_syncInBatchSeen (s : State) : (enterSynched s).syncInBatchSeen = s.syncInBatchSeen := rfl
@[simp] theorem enterSynched_debug (s : State) : (enterSynched s).debug = s.debug := rfl
@[simp] theorem enterSynched_cfg (s : State) : (enterSynched s).cfg = s.cfg := rfl
@[simp] theorem enterSynched_out (s : State) : (enterSynched s).out = s.out := rfl
@[simp] theorem enterSynched_ev (s : State) : (enterSynched s).ev = s.ev := rfl
@[simp] theorem enterSynched_input (s : State) : (enterSynched s).input = s.input := rfl
@[simp] theorem enterSynched_consumed (s : State) : (enterSynched s).consumed = s.consumed := rfl
@[simp] theorem enterSynched_trace (s : State) : (enterSynched s).trace = s.trace := rfl
@[simp] theorem enterSynched_reply (s : State) : (enterSynched s).reply = s.reply := rfl
@[simp] theorem enterSynched_pending (s : State) : (enterSynched s).pending = s.pending := rfl
@[simp] theorem enterSynched_placed (s : State) : (enterSynched s).placed = s.placed := rfl

/-! ## dataWord -/

@[simp] theorem dataWord_state (c : Word) (s : State) : (dataWord c s).state = s.state := by simp only [dataWord]
@[simp] theorem dataWord_acc (c : Word) (s : State) : (dataWord c s).acc = s.acc := by simp only [dataWord]
@[simp] theorem dataWord_wordCount (c : Word) (s : State) : (dataWord c s).wordCount = s.wordCount := by simp only [dataWord]
@[simp] theorem dataWord_msg (c : Word) (s : State) :
    (dataWord c s).msg = feedNumeric (payload c) (feedText (payload c) s.msg) := by simp only [dataWord]
@[simp] theorem dataWord_syncInBatchSeen (c : Word) (s : State) :
    (dataWord c s).syncInBatchSeen = s.syncInBatchSeen := by simp only [dataWord]
@[simp] theorem dataWord_debug (c : Word) (s : State) : (dataWord c s).debug = s.debug := by simp only [dataWord]
@[simp] theorem dataWord_cfg (c : Word) (s : State) : (dataWord c s).cfg = s.cfg := by simp only [dataWord]
@[simp] theorem dataWord_out (c : Word) (s : State) : (dataWord c s).out = s.out := by simp only [dataWord]
@[simp] theorem dataWord_ev (c : Word) (s : State) : (dataWord c s).ev = s.ev := by simp only [dataWord]
@[simp] theorem dataWord_input (c : Word) (s : State) : (dataWord c s).input = s.input := by simp only [dataWord]
@[simp] theorem dataWord_consumed (c : Word) (s : State) : (dataWord c s).consumed = s.consumed := by simp only [dataWord]
@[simp] theorem dataWord_trace (c : Word) (s : State) : (dataWord c s).trace = s.trace := by simp only [dataWord]
@[simp] theorem dataWord_reply (c : Word) (s : State) : (dataWord c s).reply = s.reply := by simp only [dataWord]
@[simp] theorem dataWord_pending (c : Word) (s : State) : (dataWord c s).pending = s.pending := by simp only [dataWord]
@[simp] theorem dataWord_placed (c : Word) (s : State) : (dataWord c s).placed = s.placed := by simp only [dataWord]

/-! ## addressWord -/

@[simp] theorem addressWord_state (c : Word) (i : Nat) (s : State) : (addressWord c i s).state = s.state := rfl
@[simp] theorem addressWord_acc (c : Word) (i : Nat) (s : State) : (addressWord c i s).acc = s.acc := rfl
@[simp] theorem addressWord_wordCount (c : Word) (i : Nat) (s : State) :
    (addressWord c i s).wordCount = s.wordCount := rfl
@[simp] theorem addressWord_msg (c : Word) (i : Nat) (s : State) :
    (addressWord c i s).msg = { active := true, address := fullAddress c i, function := funcField c, text := [], numeric := [], treg := 0, tcnt := 0 } := rfl
@[simp] theorem addressWord_syncInBatchSeen (c : Word) (i : Nat) (s : State) :
    (addressWord c i s).syncInBatchSeen = s.syncInBatchSeen := rfl
@[simp] theorem addressWord_debug (c : Word) (i : Nat) (s : State) : (addressWord c i s).debug = s.debug := rfl
@[simp] theorem addressWord_cfg (c : Word) (i : Nat) (s : State) : (addressWord c i s).cfg = s.cfg := rfl
@[simp] theorem addressWord_out (c : Word) (i : Nat) (s : State) : (addressWord c i s).out = s.out := rfl
@[simp] theorem addressWord_ev (c : Word) (i : Nat) (s : State) : (addressWord c i s).ev = s.ev := rfl
@[simp] theorem addressWord_input (c : Word) (i : Nat) (s : State) : (addressWord c i s).input = s.input := rfl
@[simp] theorem addressWord_consumed (c : Word) (i : Nat) (s : State) : (addressWord c i s).consumed = s.consumed := rfl
@[simp] theorem addressWord_trace (c : Word) (i : Nat) (s : State) : (addressWord c i s).trace = s.trace := rfl
@[simp] theorem addressWord_reply (c : Word) (i : Nat) (s : State) : (addressWord c i s).reply = s.reply := rfl
@[simp] theorem addressWord_pending (c : Word) (i : Nat) (s : State) : (addressWord c i s).pending = s.pending := rfl
@[simp] theorem addressWord_placed (c : Word) (i : Nat) (s : State) : (addressWord c i s).placed = s.placed := rfl

/-! ## takeRecords -/

@[simp] theorem takeRecords_state (n : Nat) (s : State) : (takeRecords n s).state = s.state := rfl
@[simp] theorem takeRecords_acc (n : Nat) (s : State) : (takeRecords n s).acc = s.acc := rfl
@[simp] theorem takeRecords_wordCount (n : Nat) (s : State) : (takeRecords n s).wordCount = s.wordCount := rfl
@[simp] theorem takeRecords_msg (n : Nat) (s : State) : (takeRecords n s).msg = s.msg := rfl
@[simp] theorem takeRecords_syncInBatchSeen (n : Nat) (s : State) :
    (takeRecords n s).syncInBatchSeen = s.syncInBatchSeen := rfl
@[simp] theorem takeRecords_debug (n : Nat) (s : State) : (takeRecords n s).debug = s.debug := rfl
@[simp] theorem takeRecords_cfg (n : Nat) (s : State) : (takeRecords n s).cfg = s.cfg := rfl
@[simp] theorem takeRecords_out (n : Nat) (s : State) : (takeRecords n s).out = s.out.drop n := rfl
@[simp] theorem takeRecords_ev (n : Nat) (s : State) : (takeRecords n s).ev = s.ev := rfl
@[simp] theorem takeRecords_input (n : Nat) (s : State) : (takeRecords n s).input = s.input := rfl
@[simp] theorem takeRecords_consumed (n : Nat) (s : State) : (takeRecords n s).consumed = s.consumed := rfl
@[simp] theorem takeRecords_trace (n : Nat) (s : State) : (takeRecords n s).trace = s.trace := rfl
@[simp] theorem takeRecords_reply (n : Nat) (s : State) : (takeRecords n s).reply = .records (s.out.take n) := rfl
@[simp] theorem takeRecords_pending (n : Nat) (s : State) : (takeRecords n s).pending = s.pending := rfl
@[simp] theorem takeRecords_placed (n : Nat) (s : State) : (takeRecords n s).placed = s.placed := rfl

/-! ## takeEvents -/

@[simp] theorem takeEvents_state (n : Nat) (s : State) : (takeEvents n s).state = s.state := rfl
@[simp] theorem takeEvents_acc (n : Nat) (s : State) : (takeEvents n s).acc = s.acc := rfl
@[simp] theorem takeEvents_wordCount (n : Nat) (s : State) : (takeEvents n s).wordCount = s.wordCount := rfl
@[simp] theorem takeEvents_msg (n : Nat) (s : State) : (takeEvents n s).msg = s.msg := rfl
@[simp] theorem takeEvents_syncInBatchSeen (n : Nat) (s : State) :
    (takeEvents n s).syncInBatchSeen = s.syncInBatchSeen := rfl
@[simp] theorem takeEvents_debug (n : Nat) (s : State) : (takeEvents n s).debug = s.debug := rfl
@[simp] theorem takeEvents_cfg (n : Nat) (s : State) : (takeEvents n s).cfg = s.cfg := rfl
@[simp] theorem takeEvents_out (n : Nat) (s : State) : (takeEvents n s).out = s.out := rfl
@[simp] theorem takeEvents_ev (n : Nat) (s : State) : (takeEvents n s).ev = s.ev.drop n := rfl
@[simp] theorem takeEvents_input (n : Nat) (s : State) : (takeEvents n s).input = s.input := rfl
@[simp] theorem takeEvents_consumed (n : Nat) (s : State) : (takeEvents n s).consumed = s.consumed := rfl
@[simp] theorem takeEvents_trace (n : Nat) (s : State) : (takeEvents n s).trace = s.trace := rfl
@[simp] theorem takeEvents_reply (n : Nat) (s : State) : (takeEvents n s).reply = .events (s.ev.take n) := rfl
@[simp] theorem takeEvents_pending (n : Nat) (s : State) : (takeEvents n s).pending = s.pending := rfl
@[simp] theorem takeEvents_placed (n : Nat) (s : State) : (takeEvents n s).placed = s.placed := rfl

end Sys2Proof.Machine
end

