-- ==== Sys2Proof/Laws/Ops.lean ====
section
/-! SUPPORT. For each shared operation and each step, what it can do, said once: later proofs cite these and do not unfold
the operation. -/

namespace Sys2Proof.Machine

/-! ## Emission and loss of sync -/

theorem emissible_iff (m : Message) : emissible m = true ↔ m.address ≠ 0 ∨ m.text ≠ [] := by
  simp [emissible, List.length_pos_iff]

/-- A guarded emission appends the record of the message when E holds, and else changes nothing (R126). -/
theorem emitIfEmissible_cases (eom : Bool) (s : State) :
    (emissible s.msg = true ∧ emitIfEmissible eom s = appendRecord (recordOf s eom) s) ∨
    (emissible s.msg = false ∧ emitIfEmissible eom s = s) := by
  cases h : emissible s.msg <;> simp [emitIfEmissible, emitMessage, h]

/-- Loss of sync in full (R154, R155, R160). -/
theorem loseSync_cases (e : Event) (s : State) :
    (emissible s.msg = true ∧
      loseSync e s = enterInitial (msgReset (appendRecord (recordOf s false) (raiseEvent e s)))) ∨
    (emissible s.msg = false ∧ loseSync e s = enterInitial (msgReset (raiseEvent e s))) := by
  cases h : emissible s.msg <;> simp [loseSync, flushPartial, emitIfEmissible, emitMessage, recordOf, h]

/-- The IDLE class in full (R129). -/
theorem idleWord_cases (s : State) :
    (s.msg.active = true ∧ emissible s.msg = true ∧
      idleWord s = msgReset (appendRecord (recordOf s true) s)) ∨
    (s.msg.active = true ∧ emissible s.msg = false ∧ idleWord s = msgReset s) ∨
    (s.msg.active = false ∧
      idleWord s = raiseEvent { kind := .idleNoMessage, info := .word Config.idleWord } s) := by
  cases ha : s.msg.active <;> cases he : emissible s.msg <;>
    simp [idleWord, emitIfEmissible, emitMessage, ha, he]

/-! ## Legal configurations -/

/-- The legal initial states (R32). -/
theorem legalInitialState_iff (c : ControlState) :
    legalInitialState c = true ↔ c = .searchSync ∨ c = .searchPreambleStart := by
  cases c <;> simp [legalInitialState]

/-- The legal preamble lengths (R33). -/
theorem legalPreambleLen_iff (L : Nat) : legalPreambleLen L = true ↔ 2 ≤ L ∧ L ≤ 32 :=
  decide_eq_true_iff

/-! ## Symbols and matches -/

/-- A SYNC match is a Hamming distance of at most 2 (R110, R113). -/
theorem syncMatches_iff (w : Word) :
    syncMatches w = true ↔ Codec.hamming w 0x7CD215D8 ≤ 2 := decide_eq_true_iff

/-- The shift of one observed symbol, inverted (R47, R106). -/
theorem shiftBit_storedBit (w : Word) (x : Symbol) :
    shiftBit w (storedBit x) = (w <<< 1) ||| (if x then 0 else 1) := by
  cases x <;> rfl

/-- One symbol consumed and shifted in, field by field. -/
theorem shiftSymbol_eq {s : State} {x : Symbol} {rest : List Symbol} (h : s.input = x :: rest) :
    shiftSymbol x s =
      { s with
        acc := (s.acc <<< 1) ||| (if x then 0 else 1)
        input := rest
        consumed := s.consumed + 1
        trace := s.trace ++ [.symbols [x]] } := by
  cases x <;> simp [shiftSymbol, shiftIn, consume, h, shiftBit, storedBit]

/-! ## The steps -/

theorem stepSps_nil {s : State} (h : s.input = []) : stepSps s = (0, s) := by simp [stepSps, h]

theorem stepSps_cons {s : State} {x : Symbol} {rest : List Symbol} (h : s.input = x :: rest) :
    stepSps s =
      (1, if preambleMatches s.cfg.preambleLen (shiftBit s.acc (storedBit x))
        then { shiftSymbol x s with state := .searchPreambleEnd } else shiftSymbol x s) := by
  simp [stepSps, h, shiftSymbol]

theorem stepSpe_nil {s : State} (h : s.input = []) : stepSpe s = (0, s) := by simp [stepSpe, h]

theorem stepSpe_cons {s : State} {x : Symbol} {rest : List Symbol} (h : s.input = x :: rest) :
    stepSpe s =
      (1, if preambleMatches s.cfg.preambleLen (shiftBit s.acc (storedBit x))
        then shiftSymbol x s else { shiftSymbol x s with state := .sync }) := by
  simp [stepSpe, h, shiftSymbol]

theorem stepSearchSync_nil {s : State} (h : s.input = []) : stepSearchSync s = (0, s) := by
  simp [stepSearchSync, h]

theorem stepSearchSync_cons {s : State} {x : Symbol} {rest : List Symbol} (h : s.input = x :: rest) :
    stepSearchSync s =
      (1, if syncMatches (shiftBit s.acc (storedBit x)) then enterSynched (shiftSymbol x s)
        else shiftSymbol x s) := by
  unfold stepSearchSync
  rw [h]
  rfl

theorem stepSync_short {s : State} (h : s.input.length < 32) : stepSync s = (0, s) := by
  simp [stepSync, Config.wordBits, h]

theorem stepSync_full {s : State} (h : 32 ≤ s.input.length) :
    stepSync s =
      (32, if syncMatches (nextWord s) then enterSynched (consume 32 s)
        else loseSync { kind := .syncMiss, info := .word (nextWord s) } (consume 32 s)) := by
  have : ¬ s.input.length < 32 := by omega
  simp [stepSync, Config.wordBits, this]

theorem stepSynched_short {s : State} (h : s.input.length < 32) : stepSynched s = (0, s) := by
  simp [stepSynched, Config.wordBits, h]

theorem stepSynched_full {s : State} (h : 32 ≤ s.input.length) :
    stepSynched s = (32, synchedWord (nextWord s) (consume 32 s)) := by
  have : ¬ s.input.length < 32 := by omega
  simp [stepSynched, Config.wordBits, this]

/-- A word of the batch: lost, or noted, classified and counted (R114). -/
theorem synchedWord_cases (w : Word) (s : State) :
    (Codec.valid (Codec.correct w) = false ∧
      synchedWord w s = loseSync { kind := .uncorrectable, info := .word w } s) ∨
    (Codec.valid (Codec.correct w) = true ∧ Codec.correct w = Config.syncWord ∧
      synchedWord w s =
        countWord (syncInBatchWord s.wordCount (noteCorrection (Codec.correct w) w s))) ∨
    (Codec.valid (Codec.correct w) = true ∧ Codec.correct w ≠ Config.syncWord ∧
      synchedWord w s =
        countWord (assemble (Codec.correct w) s.wordCount (noteCorrection (Codec.correct w) w s))) := by
  have hn : (noteCorrection (Codec.correct w) w s).wordCount = s.wordCount := by
    unfold noteCorrection; split <;> rfl
  cases hv : Codec.valid (Codec.correct w) with
  | false => exact .inl ⟨rfl, by simp [synchedWord, hv, uncorrectableWord]⟩
  | true =>
    by_cases hs : Codec.correct w = Config.syncWord
    · refine .inr (.inl ⟨rfl, hs, ?_⟩)
      simp only [synchedWord, hv, if_true, if_pos hs, hn]
    · exact .inr (.inr ⟨rfl, hs, by simp [synchedWord, hv, hs, hn]⟩)

/-- Counting a word writes `word_count` and, at 16, the control state (R114). -/
theorem countWord_eq (s : State) :
    countWord s =
      { s with
        wordCount := s.wordCount + 1
        state := if s.wordCount + 1 = 16 then .sync else s.state } := by
  unfold countWord Config.batchWords
  split <;> rfl

/-- The dispatch, one line per control state (R102). -/
theorem automatonStep_of_state (s : State) :
    (s.state = .searchPreambleStart → automatonStep s = stepSps s) ∧
    (s.state = .searchPreambleEnd → automatonStep s = stepSpe s) ∧
    (s.state = .searchSync → automatonStep s = stepSearchSync s) ∧
    (s.state = .sync → automatonStep s = stepSync s) ∧
    (s.state = .synched → automatonStep s = stepSynched s) := by
  refine ⟨?_, ?_, ?_, ?_, ?_⟩ <;> intro h <;> simp [automatonStep, h]

/-! ## Frames -/

/-- What loss of sync leaves alone and what it leaves behind (R160). -/
theorem loseSync_frame (e : Event) (s : State) :
    (loseSync e s).input = s.input ∧ (loseSync e s).consumed = s.consumed ∧
    (loseSync e s).state = s.cfg.initialState ∧ (loseSync e s).acc = 0 ∧
    (loseSync e s).wordCount = s.wordCount ∧ (loseSync e s).cfg = s.cfg ∧
    (loseSync e s).debug = s.debug ∧ (loseSync e s).syncInBatchSeen = s.syncInBatchSeen ∧
    (loseSync e s).ev = s.ev ++ [e] ∧ (loseSync e s).msg = (msgReset s).msg ∧
    (loseSync e s).reply = s.reply ∧ (loseSync e s).pending = s.pending ∧ (loseSync e s).placed = s.placed := by
  rcases loseSync_cases e s with ⟨_, h⟩ | ⟨_, h⟩ <;> rw [h] <;> simp

/-- What the IDLE class leaves alone. -/
theorem idleWord_frame (s : State) :
    (idleWord s).input = s.input ∧ (idleWord s).consumed = s.consumed ∧
    (idleWord s).state = s.state ∧ (idleWord s).acc = s.acc ∧
    (idleWord s).wordCount = s.wordCount ∧ (idleWord s).cfg = s.cfg ∧
    (idleWord s).debug = s.debug ∧ (idleWord s).syncInBatchSeen = s.syncInBatchSeen ∧
    (idleWord s).reply = s.reply ∧ (idleWord s).pending = s.pending ∧ (idleWord s).placed = s.placed := by
  rcases idleWord_cases s with ⟨_, _, h⟩ | ⟨_, _, h⟩ | ⟨_, h⟩ <;> rw [h] <;> simp

/-- What ASSEMBLE leaves alone. -/
theorem assemble_frame (c : Word) (i : Nat) (s : State) :
    (assemble c i s).input = s.input ∧ (assemble c i s).consumed = s.consumed ∧
    (assemble c i s).state = s.state ∧ (assemble c i s).acc = s.acc ∧
    (assemble c i s).wordCount = s.wordCount ∧ (assemble c i s).cfg = s.cfg ∧
    (assemble c i s).debug = s.debug ∧ (assemble c i s).syncInBatchSeen = s.syncInBatchSeen ∧
    (assemble c i s).reply = s.reply ∧ (assemble c i s).pending = s.pending ∧ (assemble c i s).placed = s.placed := by
  unfold assemble
  split
  · exact idleWord_frame s
  · split
    · simp only [dataWord_input, dataWord_consumed, dataWord_state, dataWord_acc, dataWord_wordCount,
        dataWord_cfg, dataWord_debug, dataWord_syncInBatchSeen, dataWord_reply, dataWord_pending,
        dataWord_placed,
        and_self]
    · simp

/-- CORRECTED is raised or it is not. -/
theorem noteCorrection_cases (c w : Word) (s : State) :
    (c = w ∧ noteCorrection c w s = s) ∨
    (c ≠ w ∧
      noteCorrection c w s =
        raiseEvent { kind := .corrected, info := .count (Codec.hamming c w) } s) := by
  by_cases h : c = w
  · exact .inl ⟨h, if_pos h⟩
  · exact .inr ⟨h, if_neg h⟩

/-! ## WORK's loop -/

theorem runSteps_stop {s : State} (h : (automatonStep s).1 = 0) (fuel k : Nat) :
    runSteps fuel k s = (k, s) := by
  cases fuel with
  | zero => rfl
  | succ f =>
    rcases hst : automatonStep s with ⟨n, t⟩
    rw [hst] at h
    have hn : n = 0 := h
    subst hn
    simp [runSteps, hst]

theorem runSteps_go {s t : State} {n : Nat} (h : automatonStep s = (n + 1, t)) (fuel k : Nat) :
    runSteps (fuel + 1) k s = runSteps fuel (k + (n + 1)) t := by
  simp [runSteps, h]

/-! ## The machine's step -/

theorem step_of_placed {s : State} {r : Request} (h : s.placed = some r) :
    step s = runDecoded (decode r) { s with placed := none } := by simp [step, runNext, h]

theorem step_of_host {s : State} (h : s.placed = none) : step s = runHost s := by
  simp [step, runNext, h]

/-- The host's side of a step: nothing, a removal, or a host operation (R100, R167). -/
theorem runHost_cases (s : State) :
    (s.pending = [] ∧ runHost s = .next s) ∨
    ∃ rest,
      (∃ n, s.pending = .takeRecords n :: rest ∧
        runHost s = .next (takeRecords n { s with pending := rest })) ∨
      (∃ n, s.pending = .takeEvents n :: rest ∧
        runHost s = .next (takeEvents n { s with pending := rest })) ∨
      ∃ code operand, s.pending = .operation code operand :: rest ∧
        runHost s = runDecoded (decodeHostOp code operand) { s with pending := rest } := by
  unfold runHost
  split
  · exact .inl ⟨‹_›, rfl⟩
  · rename_i a rest h
    refine .inr ⟨rest, ?_⟩
    cases a with
    | takeRecords n => exact .inl ⟨n, h, rfl⟩
    | takeEvents n => exact .inr (.inl ⟨n, h, rfl⟩)
    | operation code operand => exact .inr (.inr ⟨code, operand, h, rfl⟩)

/-- What the host can request is one of its four operations (R76, R100). -/
theorem decodeHostOp_isHostOperation {code : Nat} {operand : Operand} {i : Instr}
    (h : decodeHostOp code operand = .ok i) : isHostOperation i := by
  unfold decodeHostOp at h
  split at h
  · cases operand with
    | absent => cases h; exact .inl ⟨_, rfl⟩
    | config c =>
      simp only [decodeReset] at h
      cases hc : decodeConfig c <;> rw [hc] at h <;> cases h
      exact .inl ⟨_, rfl⟩
    | symbols buf => cases h
    | bit v => cases h
  · cases operand with
    | absent => cases h; exact .inr (.inl ⟨_, rfl⟩)
    | config c => cases h
    | symbols buf =>
      simp only [decodeWork] at h
      cases hb : decodeSymbols buf <;> rw [hb] at h <;> cases h
      exact .inr (.inl ⟨_, rfl⟩)
    | bit v => cases h
  · cases operand with
    | absent => cases h; exact .inr (.inr (.inl ⟨_, rfl⟩))
    | config c => cases h
    | symbols buf => cases h
    | bit v =>
      simp only [decodeSetDebug] at h
      split at h <;> cases h <;> exact .inr (.inr (.inl ⟨_, rfl⟩))
  · cases operand <;> cases h
    exact .inr (.inr (.inr rfl))
  · cases h

/-! ## Instances -/

/-- A slot reads as what was put there, at every handle (R163). -/
theorem Bank.getD_putSlot (b : Bank) (k : Nat) (s : State) : (putSlot k s b).getD k none = some s := by
  induction k generalizing b with
  | zero => cases b <;> rfl
  | succ k ih => cases b <;> exact ih _

/-- Every other slot reads as before (R163). -/
theorem Bank.getD_putSlot_of_ne (b : Bank) {k j : Nat} (s : State) (h : j ≠ k) :
    (putSlot k s b).getD j none = b.getD j none := by
  induction k generalizing b j with
  | zero =>
    cases j with
    | zero => exact absurd rfl h
    | succ j => cases b <;> simp [putSlot]
  | succ k ih =>
    cases j with
    | zero => cases b <;> simp [putSlot]
    | succ j =>
      have hj : j ≠ k := fun e => h (congrArg Nat.succ e)
      cases b with
      | nil => simpa [putSlot] using ih [] hj
      | cons x b => simpa [putSlot] using ih b hj

theorem runInBank_next {k : Nat} {i : Instr} {b : Bank} {t : State}
    (h : runOnSlot i (b.getD k none) = .next t) : runInBank k i b = .next (putSlot k t b) := by
  rw [runInBank, h]

theorem runInBank_refused {k : Nat} {i : Instr} {b : Bank} {r : Refusal}
    (h : runOnSlot i (b.getD k none) = .refused r) : runInBank k i b = .refused r := by
  rw [runInBank, h]

end Sys2Proof.Machine
end

