-- ==== Sys2Proof/Laws/PerInstr.lean ====
section
/-! SUPPORT. The per-constructor family EncodedWidth: the bits of an encoded operation lie within the width of the place
they are read in. -/

namespace Sys2Proof.Laws.EncodedWidth

set_option Elab.async false

/-- The bits of each place (spec/opcode_table.json, R60, R73, R76). -/
def width : OpSpace → Nat
  | .hostOp => 2
  | .stateStep => 3
  | .wordClass => 32
  | .syndrome => 32
  | .correct => 32
  | .popcount => 32
  | .oddParity => 32
  | .hamming => 64
  | .shiftIn => 1
  | .preambleMatch => 32
  | .textFeed => 20
  | .numericFeed => 20
  | .emit => 1

/-- No bit of an encoded operation stands above its row's width. -/
def Statement (i : Instr) : Prop := (encode i).bits < 2 ^ width (encode i).space

theorem reset (cfg : Construction) : Statement (.reset cfg) := by simp [Statement, encode, width]

theorem work (buf : List Symbol) : Statement (.work buf) := by simp [Statement, encode, width]

theorem setDebug (v : Bool) : Statement (.setDebug v) := by simp [Statement, encode, width]

theorem status : Statement .status := by simp [Statement, encode, width]

theorem stepSps : Statement .stepSps := by simp [Statement, encode, width, stateCode]

theorem stepSpe : Statement .stepSpe := by simp [Statement, encode, width, stateCode]

theorem stepSync : Statement .stepSync := by simp [Statement, encode, width, stateCode]

theorem stepSearchSync : Statement .stepSearchSync := by simp [Statement, encode, width, stateCode]

theorem stepSynched : Statement .stepSynched := by simp [Statement, encode, width, stateCode]

theorem uncorrectable (w : Word) : Statement (.uncorrectable w) := w.isLt

theorem syncInBatch : Statement .syncInBatch := Config.syncWord.isLt

theorem idle : Statement .idle := Config.idleWord.isLt

theorem data (c : Word) : Statement (.data c) := c.isLt

theorem address (c : Word) : Statement (.address c) := c.isLt

theorem syndrome (w : Word) : Statement (.syndrome w) := w.isLt

theorem correct (w : Word) : Statement (.correct w) := w.isLt

theorem popcount (w : Word) : Statement (.popcount w) := w.isLt

theorem oddParity (w : Word) : Statement (.oddParity w) := w.isLt

theorem hamming (a b : Word) : Statement (.hamming a b) := (a ++ b : BitVec 64).isLt

theorem shiftIn (b : Bool) : Statement (.shiftIn b) := by cases b <;> simp [Statement, encode, width]

theorem preambleMatch (a : Word) : Statement (.preambleMatch a) := a.isLt

theorem textFeed (p : Payload) : Statement (.textFeed p) := p.isLt

theorem numericFeed (p : Payload) : Statement (.numericFeed p) := p.isLt

theorem emit (eom : Bool) : Statement (.emit eom) := by cases eom <;> simp [Statement, encode, width]

end Sys2Proof.Laws.EncodedWidth
end

