-- ==== Sys2Proof/Machine/Stimulus.lean ====
section
/-! DEFINITION. The stimulus notation (30_encoding.md R78 to R80, D23): a program is a configuration, a sequence of symbols
and the host operations that present them. It stands outside the block, as its host, and keeps the host's duties (R174,
R175). -/

namespace Sys2Proof.Machine

/-- The statements (R78) and the pseudo-statements (R79). -/
inductive Statement where
  | config (initial : ControlState) (plen : Nat) (channel : String)
  | reset
  | obits (bits : List Symbol)
  | oword (w : Word)
  | workAll
  | work (n : Nat)
  | setdbg (v : Bool)
  | status
  | sword (w : Word)
  | syncw
  | idlew
  | idles (n : Nat)
  | addrw (addr18 : BitVec 18) (func : FunctionCode)
  | dataw (payload : Payload)
  | flip (mask : Word)
  | preamble (n : Nat)
  deriving DecidableEq, Repr

/-- What an observation point reads: STATUS, `out` and `ev` (R78). -/
structure Reading where
  status : Registers
  out : List PagerMessage
  ev : List Event
  deriving DecidableEq, Repr

/-- The reading of an instance. -/
def readingOf (s : State) : Reading where
  status := s.toRegisters
  out := s.out
  ev := s.ev

/-- The host of one instance: the current CONFIG, the program's stream, the host cursor, the instance, what each
operation handed back, what each STATUS statement read, and whether a WORK has stood in the program. -/
structure Bench where
  cfg : Construction
  stream : List Symbol
  cursor : Nat
  block : Option State
  replies : List Reply
  readings : List Reading
  worked : Bool
  deriving DecidableEq, Repr

/-- The bench before a program: the default CONFIG, no symbols, no instance (R78, R173). -/
def benchStart : Bench where
  cfg := Config.defaults
  stream := []
  cursor := 0
  block := none
  replies := []
  readings := []
  worked := false

/-- Append observed symbols to the stream. -/
def present (l : List Symbol) (b : Bench) : Bench := { b with stream := b.stream ++ l }

/-- The observed symbols whose stored word is w (R79, SWORD). -/
def storedWord (w : Word) (b : Bench) : Bench := present (symbolsOfWord w) b

/-- One host operation of the program; the cursor advances by the count a WORK returns (R78). -/
def hostOperation (i : Instr) (b : Bench) : Host.Outcome Bench Fault Refusal :=
  match runOnSlot i b.block with
  | .fault f => .fault f
  | .refused r => .refused r
  | .next s =>
    .next
      { b with
        block := some s
        replies := b.replies ++ [s.reply]
        cursor :=
          match s.reply with
          | .count n => b.cursor + n
          | _ => b.cursor }

/-- The STATUS statement, an observation point: the host operation, whose copy is read together with `out` and `ev`; the
queues are read and not drained (R78). -/
def observe (b : Bench) : Host.Outcome Bench Fault Refusal :=
  match hostOperation .status b with
  | .fault f => .fault f
  | .refused r => .refused r
  | .next c => .next { c with readings := c.readings ++ c.block.toList.map readingOf }

/-- The symbols of FLIP: the preceding 32 symbols with the mask's bits complemented, bit 31 first (R79). -/
def flipLast (mask : Word) (l : List Symbol) : List Symbol :=
  l.take (l.length - 32) ++
    List.zipWith (fun x m => x != m) (l.drop (l.length - 32)) ((symbolsOfWord mask).map (!·))

/-- PREAMBLE's n observed symbols `0101...` (R79). -/
def preambleSymbols (n : Nat) : List Symbol := (List.range n).map fun k => k % 2 == 1

/-- One statement. -/
def runStatement (st : Statement) (b : Bench) : Host.Outcome Bench Fault Refusal :=
  match st with
  | .config initial plen channel =>
    .next { b with cfg := { b.cfg with initialState := initial, preambleLen := plen, channel := channel } }
  | .reset => hostOperation (.reset b.cfg) b
  | .obits bits => .next (present bits b)
  | .oword w => .next (present (symbolsOfWord (~~~w)) b)
  | .workAll => hostOperation (.work (b.stream.drop b.cursor)) { b with worked := true }
  | .work n => hostOperation (.work ((b.stream.drop b.cursor).take n)) { b with worked := true }
  | .setdbg v => hostOperation (.setDebug v) b
  | .status => observe b
  | .sword w => .next (storedWord w b)
  | .syncw => .next (storedWord Config.syncWord b)
  | .idlew => .next (storedWord Config.idleWord b)
  | .idles n => .next (present (List.replicate n (symbolsOfWord Config.idleWord)).flatten b)
  | .addrw addr18 func => .next (storedWord (enc (addressBits addr18 func)) b)
  | .dataw payload => .next (storedWord (enc (dataBits payload)) b)
  | .flip mask => .next { b with stream := flipLast mask b.stream }
  | .preamble n => .next (present (preambleSymbols n) b)

/-- The statements of a program in order. -/
def runStatements : List Statement → Bench → Host.Outcome Bench Fault Refusal
  | [], b => .next b
  | st :: rest, b =>
    match runStatement st b with
    | .next c => runStatements rest c
    | .fault f => .fault f
    | .refused r => .refused r

/-- A program: one without a WORK statement ends with an implicit WORK (R78). -/
def runProgram (p : List Statement) : Host.Outcome Bench Fault Refusal :=
  match runStatements p benchStart with
  | .next b => if b.worked then .next b else runStatement .workAll b
  | .fault f => .fault f
  | .refused r => .refused r

end Sys2Proof.Machine
end

