-- ==== Sys2Proof/Tests/Slice0.lean ====
section
/-! SUPPORT. The model's own tests. Expected values are those of 95_test_vectors.md (table and row named in each
docstring) and of the rules' own examples, never the model's answers. -/

namespace Sys2Proof.Tests

set_option Elab.async false

open Sys2Proof.Machine

/-! ## Helpers -/

/-- A part of the next state, if there is one. -/
def seen {α : Type} (f : State → α) (o : Host.Outcome State Fault Refusal) : Option α :=
  match o with
  | .next s => some (f s)
  | .fault _ => none
  | .refused _ => none

/-- The refusal, if there is one. -/
def refusal (o : Host.Outcome State Fault Refusal) : Option Refusal :=
  match o with
  | .next _ => none
  | .fault _ => none
  | .refused r => some r

/-- A decoder's answer as an option. -/
def decoded (r : Request) : Option Instr :=
  match decode r with
  | .ok i => some i
  | .error _ => none

/-- A request without an operand outside its bits. -/
def plain (space : OpSpace) (bits : Nat) : Request := ⟨space, bits, .absent⟩

/-- The state after reset, in another control state. -/
def inState (st : ControlState) : State := { State.reset with state := st }

/-- A message with an address and a text. -/
def someMsg (active : Bool) (address : PagerAddress) (text : List CharCode) : Message :=
  { State.reset.msg with active := active, address := address, text := text }

/-- V8's start: the message as given, numeric [1, 2], word index 3. -/
def v8 (active : Bool) (address : PagerAddress) (text : List CharCode) : State :=
  { State.reset with wordCount := 3, msg := { someMsg active address text with numeric := [1, 2] } }

/-- The state after reset with a message whose text decoder holds t bits. -/
def holding (t : Nat) : State := { State.reset with msg := { State.reset.msg with tcnt := t } }

/-- A word's symbols, then others, presented in a control state with a message. -/
def presented (st : ControlState) (m : Message) (w : Word) (more : List Symbol) : State :=
  { inState st with msg := m, input := symbolsOfWord w ++ more }

/-- A state whose host asks for one operation. -/
def asking (code : Nat) (operand : Operand) : State :=
  { State.reset with pending := [.operation code operand] }

/-! ## WellFormed refuses an ill-formed term of each checked class -/

/-- A correctable word is not of the class UNCORRECTABLE (V3 row 5). -/
theorem test_illformed_uncorrectable : wellFormed (.uncorrectable 0x7CD215D9) = false := by
  decide +kernel

/-- Bit 31 clear is not DATA (V4). -/
theorem test_illformed_data_flag : wellFormed (.data 0x0013439A) = false := by decide +kernel

/-- An uncorrectable word is not DATA (V3 row 7). -/
theorem test_illformed_data_uncorrectable : wellFormed (.data 0xFCD215DB) = false := by
  decide +kernel

/-- Bit 31 set is not ADDRESS (V4). -/
theorem test_illformed_address_flag : wellFormed (.address 0x899200DB) = false := by decide +kernel

/-- SYNC and IDLE are not ADDRESS, although bit 31 is 0 (V4). -/
theorem test_illformed_address_fixed :
    wellFormed (.address 0x7CD215D8) = false ∧ wellFormed (.address 0x7A89C197) = false := by
  decide +kernel

/-- An uncorrectable word is not ADDRESS (V3 row 14). -/
theorem test_illformed_address_uncorrectable : wellFormed (.address 0x7A89C190) = false := by
  decide +kernel

/-! ## Every constructor's decoding, by a word written out from the spec's encoding -/

/-- Host operation codes (R76). -/
theorem test_decode_host_ops :
    decoded ⟨.hostOp, 0b00, .config ⟨0b000, 8, "ch0", ⟨0, 0⟩, false⟩⟩ =
      some (.reset ⟨.searchPreambleStart, 8, "ch0", ⟨0, 0⟩, false⟩) ∧
    decoded ⟨.hostOp, 0b01, .symbols [1, 0, 1]⟩ = some (.work [true, false, true]) ∧
    decoded ⟨.hostOp, 0b10, .bit 1⟩ = some (.setDebug true) ∧
    decoded (plain .hostOp 0b11) = some .status := by
  decide +kernel

/-- State codes (R73). -/
theorem test_decode_steps :
    decoded (plain .stateStep 0b000) = some .stepSps ∧
    decoded (plain .stateStep 0b001) = some .stepSpe ∧
    decoded (plain .stateStep 0b010) = some .stepSync ∧
    decoded (plain .stateStep 0b011) = some .stepSearchSync ∧
    decoded (plain .stateStep 0b100) = some .stepSynched ∧
    decoded (plain .stateStep 0b101) = none := by
  decide +kernel

/-- Word classes (V4, V3 row 7); SYNC and IDLE bit by bit from R65 and R66. -/
theorem test_decode_word_classes :
    decoded (plain .wordClass 0xFCD215DB) = some (.uncorrectable 0xFCD215DB) ∧
    decoded (plain .wordClass 0b01111100110100100001010111011000) = some .syncInBatch ∧
    decoded (plain .wordClass 0b01111010100010011100000110010111) = some .idle ∧
    decoded (plain .wordClass 0x899200DB) = some (.data 0x899200DB) ∧
    decoded (plain .wordClass 0x0013439A) = some (.address 0x0013439A) := by
  decide +kernel

/-- Codec and internal operands as the table lays them out: HAMMING's a is bits 63..32. -/
theorem test_decode_internal :
    decoded (plain .syndrome 0x7CD215D9) = some (.syndrome 0x7CD215D9) ∧
    decoded (plain .correct 0x80000001) = some (.correct 0x80000001) ∧
    decoded (plain .popcount 3) = some (.popcount 3) ∧
    decoded (plain .oddParity 1) = some (.oddParity 1) ∧
    decoded (plain .hamming 0xFCD215D97CD215D8) = some (.hamming 0xFCD215D9 0x7CD215D8) ∧
    decoded (plain .shiftIn 1) = some (.shiftIn true) ∧
    decoded (plain .preambleMatch 0xAAAAAAAA) = some (.preambleMatch 0xAAAAAAAA) ∧
    decoded (plain .textFeed 0x13240) = some (.textFeed 0x13240) ∧
    decoded (plain .numericFeed 0xABCDE) = some (.numericFeed 0xABCDE) ∧
    decoded (plain .emit 0) = some (.emit false) := by
  decide +kernel

/-- A host operation with bits above its code, a payload of 21 bits, a symbol 2 and a debug value 2 are rejected. -/
theorem test_decode_rejects :
    decoded (plain .hostOp 4) = none ∧ decoded (plain .textFeed 0x100000) = none ∧
    decoded ⟨.hostOp, 1, .symbols [0, 2]⟩ = none ∧ decoded ⟨.hostOp, 2, .bit 2⟩ = none ∧
    decoded ⟨.hostOp, 3, .bit 0⟩ = none := by
  decide +kernel

/-- The table's words as first operation after reset. -/
theorem test_table_words :
    decodeTableWord 8 0 = some (.reset Config.defaults) ∧ decodeTableWord 8 1 = some (.work []) ∧
    decodeTableWord 8 4 = some .stepSynched ∧
    decodeTableWord 32 0x7CD215D8 = some .syncInBatch ∧
    seen (·.reply) (step (State.reset.withFetchWord 8 4)) = some (.taken 0) := by
  decide +kernel

/-- ENC (V4). -/
theorem test_enc :
    enc (addressBits 1 2) = 0x0000359A ∧ enc (addressBits 0x3FFFF 3) = 0x7FFFF896 ∧
    enc (dataBits 0xABCDE) = 0xD5E6F1B3 := by
  decide +kernel

/-! ## Host operations -/

/-- V9 rows 3 and 4. -/
theorem test_reset_refuses :
    refusal (exec (.reset { Config.defaults with initialState := .sync }) State.reset) =
      some .illegalInitialState ∧
    refusal (exec (.reset { Config.defaults with preambleLen := 33 }) State.reset) =
      some .illegalPreambleLen := by
  decide +kernel

/-- V9 rows 2 and 6: a message in progress is discarded without a record. -/
theorem test_reset_discards :
    seen (fun t => (t.state, t.cfg.preambleLen, t.msg.active, t.out))
      (exec (.reset { Config.defaults with initialState := .searchPreambleStart, preambleLen := 8 })
        { v8 true 1234 [0x48] with state := .synched }) =
      some (.searchPreambleStart, 8, false, []) := by
  decide +kernel

/-- V9 row 10: 40 symbols, 32 consumed. -/
theorem test_work_leaves_the_rest :
    seen (fun t => (t.reply, t.state, t.wordCount))
      (exec (.work (symbolsOfWord 0x7CD215D8 ++ List.replicate 8 true)) State.reset) =
      some (.count 32, .synched, 0) := by
  decide +kernel

/-- V7 row 2: the last 31 symbols of SYNC suffice from a cleared accumulator. -/
theorem test_work_thirty_one_symbols :
    seen (fun t => (t.reply, t.state, t.acc))
      (exec (.work ((symbolsOfWord 0x7CD215D8).drop 1)) State.reset) =
      some (.count 31, .synched, 0x7CD215D8) := by
  decide +kernel

/-- V9 row 7. -/
theorem test_set_debug :
    seen (fun t => (t.debug, t.state, t.wordCount))
      (exec (.setDebug true) { inState .synched with wordCount := 5 }) =
      some (true, .synched, 5) := by
  decide +kernel

/-- V9 row 8. -/
theorem test_status :
    seen (·.reply) (exec .status State.reset) =
      some (.status
        { state := .searchSync, acc := 0, wordCount := 0, msg := someMsg false 0 [],
          syncInBatchSeen := false, debug := false, cfg := State.reset.cfg }) := by
  decide +kernel

/-! ## Steps -/

/-- V7 row 18, second symbol, L = 2: the accumulator becomes 1, which is PB_2. -/
theorem test_step_sps_match :
    seen (fun t => (t.state, t.acc, t.reply))
      (exec .stepSps
        { inState .searchPreambleStart with
          cfg := { State.reset.cfg with preambleLen := 2 }, input := [false] }) =
      some (.searchPreambleEnd, 1, .taken 1) := by
  decide +kernel

/-- V7 row 18, first symbol: no match. -/
theorem test_step_sps_no_match :
    seen (fun t => (t.state, t.acc))
      (exec .stepSps
        { inState .searchPreambleStart with
          cfg := { State.reset.cfg with preambleLen := 2 }, input := [true] }) =
      some (.searchPreambleStart, 0) := by
  decide +kernel

/-- V7 row 16. -/
theorem test_step_spe_break :
    seen (fun t => (t.state, t.acc))
      (exec .stepSpe { inState .searchPreambleEnd with acc := 0xAAAAAAAA, input := [true] }) =
      some (.sync, 0x55555554) := by
  decide +kernel

/-- The alternation goes on (R109; V7, preamble trace). -/
theorem test_step_spe_stays :
    seen (fun t => (t.state, t.acc))
      (exec .stepSpe { inState .searchPreambleEnd with acc := 0xAAAAAAAA, input := [false] }) =
      some (.searchPreambleEnd, 0x55555555) := by
  decide +kernel

/-- V7 row 4 at its last symbol: distance 2 matches. -/
theorem test_step_searchsync_two_errors :
    seen (fun t => (t.state, t.acc, t.wordCount))
      (exec .stepSearchSync { State.reset with acc := 0x7E690AEC, wordCount := 9, input := [false] }) =
      some (.synched, 0xFCD215D9, 0) := by
  decide +kernel

/-- V7 row 6 at its last symbol: distance 3 does not. -/
theorem test_step_searchsync_three_errors :
    seen (fun t => (t.state, t.acc))
      (exec .stepSearchSync { State.reset with acc := 0x3E690AEF, input := [false] }) =
      some (.searchSync, 0x7CD215DF) := by
  decide +kernel

/-- V7 row 9. -/
theorem test_step_sync_match :
    seen (fun t => (t.state, t.acc, t.msg, t.ev))
      (exec .stepSync
        { presented .sync (someMsg true 1234 [0x48]) (0x7CD215D8 ^^^ 0x80000001) [] with
          acc := 0x1234 }) =
      some (.synched, 0x1234, someMsg true 1234 [0x48], []) := by
  decide +kernel

/-- V7 row 10; the event stands before the record (R178). -/
theorem test_step_sync_miss :
    seen (fun t => (t.state, t.acc, t.msg, t.trace.drop 1))
      (exec .stepSync
        { presented .sync (someMsg true 1234 [0x48]) (0x7CD215D8 ^^^ 7) [] with acc := 0x1234 }) =
      some (.searchSync, 0, State.reset.msg,
        [.event ⟨.syncMiss, .word 0x7CD215DF⟩, .record ⟨1234, 0, [0x48], [], false, "ch0"⟩]) := by
  decide +kernel

/-- V7 row 15. -/
theorem test_step_synched_sync_in_batch :
    seen (fun t => (t.ev, t.syncInBatchSeen, t.msg, t.wordCount))
      (exec .stepSynched
        { presented .synched (someMsg true 1234 [0x48]) (0x7CD215D8 ^^^ 3) [] with wordCount := 4 }) =
      some ([⟨.corrected, .count 2⟩, ⟨.syncInBatch, .count 4⟩], true, someMsg true 1234 [0x48], 5) := by
  decide +kernel

/-- V7 row 14. -/
theorem test_step_synched_uncorrectable :
    seen (fun t => ((t.state, t.ev, t.out), t.msg.active, t.acc, t.wordCount))
      (exec .stepSynched
        { presented .synched (someMsg true 0 []) 0x7A89C190 [] with
          wordCount := 7, acc := 0xDEADBEEF }) =
      some ((.searchSync, [⟨.uncorrectable, .word 0x7A89C190⟩], []), false, 0, 7) := by
  decide +kernel

/-! ## Word classes -/

/-- V8 row 4, flush column: text without an active message is emitted on loss of sync. -/
theorem test_uncorrectable_flushes :
    seen (fun t => (t.out, t.msg))
      (exec (.uncorrectable 0x7A89C190) (v8 false 0 [0x48])) =
      some ([⟨0, 0, [0x48], [1, 2], false, "ch0"⟩], State.reset.msg) := by
  decide +kernel

/-- R135's example at index 4. -/
theorem test_sync_in_batch :
    seen (fun t => (t.syncInBatchSeen, t.ev, t.msg))
      (exec .syncInBatch { v8 true 1234 [] with wordCount := 4 }) =
      some (true, [⟨.syncInBatch, .count 4⟩], (v8 true 1234 []).msg) := by
  decide +kernel

/-- V8 row 1. -/
theorem test_idle_emits :
    seen (fun t => (t.out, t.ev, t.msg)) (exec .idle (v8 true 1234 [])) =
      some ([⟨1234, 0, [], [1, 2], true, "ch0"⟩], [], State.reset.msg) := by
  decide +kernel

/-- V8 row 4. -/
theorem test_idle_no_message :
    seen (fun t => (t.out, t.ev, t.msg)) (exec .idle (v8 false 0 [0x48])) =
      some ([], [⟨.idleNoMessage, .word 0x7A89C197⟩], (v8 false 0 [0x48]).msg) := by
  decide +kernel

/-- R130's example. -/
theorem test_data :
    seen (fun t => (t.msg.text, t.msg.numeric, t.msg.tcnt, t.msg.treg))
      (exec (.data 0x899200DB) State.reset) =
      some ([0x48, 0x49], [1, 3, 2, 4, 0], 6, 1) := by
  decide +kernel

/-- V8: (154, func 0) at index 4 is 1234; the previous text is dropped. -/
theorem test_address :
    seen (fun t => (t.msg, t.out)) (exec (.address 0x0013439A) { v8 true 9 [0x48] with wordCount := 4 }) =
      some (someMsg true 1234 [], []) := by
  decide +kernel

/-- V8: (0x3FFFF, 3) at index 15. -/
theorem test_address_largest :
    seen (fun t => (t.msg.address, t.msg.function))
      (exec (.address 0x7FFFF896) { State.reset with wordCount := 15 }) =
      some (0x1FFFFF, 3) := by
  decide +kernel

/-! ## Codec -/

/-- V3 rows 6 and 10. -/
theorem test_syndrome :
    seen (·.reply) (exec (.syndrome 0xFCD215D9) State.reset) = some (.word 0x3B4) ∧
    seen (·.reply) (exec (.syndrome 0x0000010B) State.reset) = some (.word 0x085) := by
  decide +kernel

/-- V3 rows 13 and 10. -/
theorem test_correct :
    seen (·.reply) (exec (.correct 0x801350ED) State.reset) = some (.word 0x001350EC) ∧
    seen (·.reply) (exec (.correct 0x0000010B) State.reset) = some (.word 0x0000430B) := by
  decide +kernel

/-- V3 row 7: failure returns the word unchanged. -/
theorem test_correct_failure :
    seen (·.reply) (exec (.correct 0xFCD215DB) State.reset) = some (.word 0xFCD215DB) := by
  decide +kernel

/-- V3, helper vectors. -/
theorem test_counts :
    seen (·.reply) (exec (.popcount 0x7CD215D8) State.reset) = some (.number 16) ∧
    seen (·.reply) (exec (.oddParity 0x00000001) State.reset) = some (.bit true) ∧
    seen (·.reply) (exec (.oddParity 0x7A89C197) State.reset) = some (.bit false) ∧
    seen (·.reply) (exec (.hamming 0xFCD215D9 0x7CD215D8) State.reset) = some (.number 2) := by
  decide +kernel

/-- V2: SYNDROME of single bits 11, 20 and 31. -/
theorem test_single_bit_syndromes :
    Codec.syndrome (1#32 <<< 11) = 0x769 ∧ Codec.syndrome (1#32 <<< 20) = 0x7CF ∧
    Codec.syndrome (1#32 <<< 31) = 0x7B4 := by
  decide +kernel

/-! ## Assembler operations -/

/-- V7, preamble trace with L = 8, symbol 9 and symbol 8. -/
theorem test_shift_and_preamble :
    seen (·.acc) (exec (.shiftIn true) { State.reset with acc := 0xAA }) = some 0x155 ∧
    seen (·.reply)
      (exec (.preambleMatch 0x155)
        { State.reset with cfg := { State.reset.cfg with preambleLen := 8 } }) = some (.bit true) ∧
    seen (·.reply)
      (exec (.preambleMatch 0x2A)
        { State.reset with cfg := { State.reset.cfg with preambleLen := 8 } }) =
      some (.bit false) := by
  decide +kernel

/-- V5: payload 0x13240 with 6 and with 1 bits held. -/
theorem test_text_feed :
    seen (fun t => (t.msg.text, t.msg.tcnt, t.msg.treg)) (exec (.textFeed 0x13240) (holding 6)) =
      some ([0x00, 0x64, 0x24], 5, 1) ∧
    seen (fun t => (t.msg.text, t.msg.tcnt, t.msg.treg)) (exec (.textFeed 0x13240) (holding 1)) =
      some ([0x10, 0x13, 0x01], 0, 1) := by
  decide +kernel

/-- V6, with its rendering. -/
theorem test_numeric_feed :
    seen (fun t => (t.msg.numeric, renderNumeric t.msg.numeric))
      (exec (.numericFeed 0xABCDE) State.reset) =
      some ([10, 11, 12, 13, 14], ['*', 'U', ' ', '-', ')']) := by
  decide +kernel

/-- R127: the message state is not changed. -/
theorem test_emit :
    seen (fun t => (t.out, t.msg)) (exec (.emit true) (v8 true 1234 [0x48])) =
      some ([⟨1234, 0, [0x48], [1, 2], true, "ch0"⟩], (v8 true 1234 [0x48]).msg) := by
  decide +kernel

/-- V3, timing vectors: rows 3, 5, 9 and 7. -/
theorem test_cost :
    synchedEvaluations 0x7CD215D8 = 2 ∧ synchedEvaluations 0x7CD215D9 = 3 ∧
    synchedEvaluations 0x80000000 = 34 ∧ synchedEvaluations 0xFCD215DB = 530 := by
  decide +kernel

/-- V4: 0x0013439A is presented as 0xFFECBC65 (R79). -/
theorem test_presented_symbols :
    (symbolsOfWord 0x0013439A).take 16 =
      [true, true, true, true, true, true, true, true, true, true, true, false, true, true, false,
       false] := by
  decide +kernel

/-- A FLIP complements the preceding symbols at the mask's bits (R79), so three errors in IDLE are 0x7A89C190. -/
theorem test_flip :
    flipLast 0x00000007 (symbolsOfWord 0x7A89C197) = symbolsOfWord 0x7A89C190 := by
  decide +kernel

/-- RESET at a position past the end of a bank constructs an instance there (R163, R173; log entry 11). -/
theorem test_bank_grows :
    (match runInBank 2 (.reset Config.defaults) [none] with
      | .next b => some (b.length, (b.getD 1 none).isNone, (b.getD 2 none).isSome)
      | .fault _ => none
      | .refused _ => none) = some (3, true, true) := by
  decide

/-- What a program's observation points read. -/
def readings (p : List Statement) : Option (List Reading) :=
  match runProgram p with
  | .next b => some b.readings
  | .fault _ => none
  | .refused _ => none

/-- A STATUS statement reads `out` and `ev` too, and keeps them when a later RESET discards the queues (R78, R171): an
IDLE without a message, as V8 row 4 raises it. -/
theorem test_status_statement :
    (readings [.reset, .syncw, .idlew, .work 64, .status, .reset, .status]).map
        (List.map fun r => (r.status.wordCount, r.out, r.ev)) =
      some [(1, [], [⟨.idleNoMessage, .word 0x7A89C197⟩]), (0, [], [])] := by
  decide +kernel

/-! ## Witnesses: each statement's hypotheses are met together, at a boundary of each clause -/

/-- ResetConstructsOrRefuses, its three clauses: L = 2 and L = 32; `Sync`; L = 1 and L = 33. -/
theorem witness_reset :
    (∃ c : Construction, c.initialState = .searchPreambleStart ∧ 2 ≤ c.preambleLen ∧ c.preambleLen = 2) ∧
    (∃ c : Construction, c.initialState = .searchSync ∧ 2 ≤ c.preambleLen ∧ c.preambleLen = 32) ∧
    (∃ c : Construction, c.initialState ≠ .searchSync ∧ c.initialState ≠ .searchPreambleStart) ∧
    (∃ c : Construction, c.initialState = .searchSync ∧ c.preambleLen = 1) ∧
    (∃ c : Construction, c.initialState = .searchSync ∧ c.preambleLen = 33) :=
  ⟨⟨⟨.searchPreambleStart, 2, "ch0", ⟨0, 0⟩, false⟩, by decide⟩,
   ⟨⟨.searchSync, 32, "ch0", ⟨0, 0⟩, false⟩, by decide⟩,
   ⟨⟨.sync, 32, "ch0", ⟨0, 0⟩, false⟩, by decide⟩,
   ⟨⟨.searchSync, 1, "ch0", ⟨0, 0⟩, false⟩, by decide⟩,
   ⟨⟨.searchSync, 33, "ch0", ⟨0, 0⟩, false⟩, by decide⟩⟩

/-- ChunkingDoesNotMatter. -/
theorem witness_chunks : ([[], [true]] : List (List Symbol)) ≠ [] := by decide

/-- StepReadsAllOrNothing: one symbol short and just enough, in `Synched` and in `SearchSync`. -/
theorem witness_step_reads :
    ({ inState .synched with input := List.replicate 31 true } : State).input.length < stepLength .synched ∧
    stepLength .synched ≤ ({ inState .synched with input := List.replicate 32 true } : State).input.length ∧
    State.reset.input.length < stepLength .searchSync ∧
    stepLength .searchSync ≤ ({ State.reset with input := [true] } : State).input.length := by
  decide

/-- StepSps, StepSpe, StepSearchSync: both clauses. -/
theorem witness_search_steps :
    State.reset.input = [] ∧
    ∃ (s : State) (x : Symbol) (rest : List Symbol) (a : Word),
      s.input = x :: rest ∧ a = (s.acc <<< 1) ||| (if x then 0 else 1) :=
  ⟨rfl, { State.reset with input := [true] }, true, [], 0, rfl, by decide⟩

/-- StepSync: the short read, and the three outcomes at distances 2 and 3. -/
theorem witness_step_sync :
    ({ inState .sync with input := List.replicate 31 true } : State).input.length < 32 ∧
    (symbolsOfWord 0xFCD215D9).length = 32 ∧
    Codec.hamming (wordOfSymbols (symbolsOfWord 0xFCD215D9)) 0x7CD215D8 = 2 ∧
    Codec.hamming (wordOfSymbols (symbolsOfWord 0xFCD215DB)) 0x7CD215D8 = 3 ∧
    (v8 true 1234 []).msg.address ≠ 0 ∧ (v8 true 0 []).msg.address = 0 ∧
    (v8 true 0 []).msg.text = [] := by
  decide +kernel

/-- StepSynched: the three outcomes of a full read. -/
theorem witness_step_synched :
    (symbolsOfWord 0xFCD215DB).length = 32 ∧
    Codec.syndrome (Codec.correct (wordOfSymbols (symbolsOfWord 0xFCD215DB))) ≠ 0 ∧
    (Codec.syndrome (Codec.correct (wordOfSymbols (symbolsOfWord 0x899200DB))) = 0 ∧
      Codec.correct (wordOfSymbols (symbolsOfWord 0x899200DB)) =
        wordOfSymbols (symbolsOfWord 0x899200DB)) ∧
    (Codec.syndrome (Codec.correct (wordOfSymbols (symbolsOfWord 0x898200DB))) = 0 ∧
      Codec.correct (wordOfSymbols (symbolsOfWord 0x898200DB)) ≠
        wordOfSymbols (symbolsOfWord 0x898200DB)) := by
  decide +kernel

/-- UncorrectableWord and Idle: E by the address, E by the text, not E, and no active message. -/
theorem witness_message_states :
    (v8 true 1 []).msg.address ≠ 0 ∧ (v8 true 1 []).msg.active = true ∧
    (v8 true 0 [0]).msg.text ≠ [] ∧
    ((v8 true 0 []).msg.active = true ∧ (v8 true 0 []).msg.address = 0 ∧ (v8 true 0 []).msg.text = []) ∧
    (v8 false 0 []).msg.active = false := by
  decide

/-- AddressWord: the last word index. -/
theorem witness_address : ({ State.reset with wordCount := 15 } : State).wordCount < 16 := by decide

/-- TextFeed: the largest count, with a character to read. -/
theorem witness_text_feed : (holding 6).msg.tcnt ≤ 6 ∧ 0 < ((holding 6).msg.tcnt + 20) / 7 := by decide

/-- PreambleMatch: both ends of the range. -/
theorem witness_preamble :
    2 ≤ State.reset.cfg.preambleLen ∧ State.reset.cfg.preambleLen ≤ 32 ∧
    2 ≤ ({ State.reset with cfg := { State.reset.cfg with preambleLen := 2 } } : State).cfg.preambleLen := by
  decide

/-- CorrectFindsTheUniqueNearWord: a valid word within distance 2 of another word. -/
theorem witness_near_word : Codec.syndrome 0 = 0 ∧ Codec.hamming 0 0x80000001 = 2 := by decide +kernel

/-- CorrectionGuarantee: two errors, three errors, and four and five of the bits of a valid word of weight 6 (R93). -/
theorem witness_correction :
    Codec.syndrome 0x7CD215D8 = 0 ∧ Codec.popcount 0x80000001 = 2 ∧ Codec.popcount 7 = 3 ∧
    Codec.popcount 0x10B = 4 ∧ Codec.syndrome 0x430B = 0 ∧ Codec.popcount 0x430B = 6 ∧
    (0x10B#32 &&& 0x430B#32) = 0x10B#32 ∧
    Codec.popcount 0x30B = 5 ∧ (0x30B#32 &&& 0x430B#32) = 0x30B#32 := by
  decide +kernel

/-- ValidWordsAreSixApart and EncIsTheOneValidWord. -/
theorem witness_valid_words : Codec.syndrome 0 = 0 ∧ Codec.syndrome 0x430B = 0 ∧ (0 : Word) ≠ 0x430B := by
  decide +kernel

/-- WordReadIsTheAccumulatorsOrder, StepSync and StepSynched: 32 symbols. -/
theorem witness_word_read : (symbolsOfWord 0x7CD215D8).length = 32 := by decide

/-- WordClassesInOrder: a corrected word. -/
theorem witness_word_classes : (0x7A89C197 : Word) = Codec.correct 0xFA89C197 := by decide +kernel

/-- DecodeInvertsEncode and DecodedIsWellFormed: a well-formed word of each checked class, decoded from its own bits. -/
theorem witness_well_formed :
    wellFormed (.uncorrectable 0xFCD215DB) = true ∧ wellFormed (.data 0x899200DB) = true ∧
    wellFormed (.address 0x0013439A) = true ∧
    decoded (plain .wordClass 0x899200DB) = some (.data 0x899200DB) := by
  decide +kernel

/-- NonBitSymbolsAreRefused: both clauses at the boundary value. -/
theorem witness_symbols :
    (∃ s : State, ∃ rest, s.placed = none ∧ s.pending = .operation 1 (.symbols [1, 2]) :: rest) ∧
    (∃ v ∈ [1, 2], 1 < v) ∧ (∀ v ∈ [0, 1], v ≤ 1) :=
  ⟨⟨asking 1 (.symbols [1, 2]), [], rfl, rfl⟩, by decide, by decide⟩

/-- StepRunsTheNextAction, its seven clauses, and HostReachesOnlyItsFourOperations. -/
theorem witness_next_action :
    (asking 3 .absent).placed = none ∧ (asking 3 .absent).pending = [.operation 3 .absent] ∧
    ({ State.reset with placed := some (plain .shiftIn 1) } : State).placed =
      some (plain .shiftIn 1) ∧
    decoded (plain .shiftIn 1) = some (.shiftIn true) ∧ decoded (plain .shiftIn 2) = none ∧
    seen (·.placed) (step (asking 3 .absent)) = some none ∧
    decoded (plain .hostOp 3) = some .status ∧ decoded (plain .hostOp 4) = none ∧
    ({ State.reset with pending := [.takeRecords 1] } : State).pending = [.takeRecords 1] ∧
    ({ State.reset with pending := [.takeEvents 0] } : State).pending = [.takeEvents 0] ∧
    State.reset.pending = [] := by
  decide +kernel

/-- FetchWordIsRunNext. -/
theorem witness_fetch : decodeTableWord 8 3 = some .status := by decide

/-- StepKeepsTheInvariant: a state with the invariant and a next state. -/
theorem witness_invariant : State.reset.Inv ∧ ∃ t, step State.reset = .next t :=
  ⟨{ initial_legal := .inl rfl
     preamble_legal := ⟨by decide, by decide⟩
     count_le := by decide
     count_synched := by decide
     direct_sync := by decide
     sync_after_batch := by decide
     message := ⟨by decide, by decide, by decide⟩
     records := by simp [State.reset]
     events := by simp [State.reset]
     no_input := rfl
     nothing_placed := rfl },
   State.reset, rfl⟩

/-- TransitionRelation: a step that consumed something, in each control state. -/
theorem witness_transitions :
    (automatonStep { inState .searchPreambleStart with input := [true] }).1 ≠ 0 ∧
    (automatonStep { inState .searchPreambleEnd with input := [true] }).1 ≠ 0 ∧
    (automatonStep { inState .searchSync with input := [true] }).1 ≠ 0 ∧
    (automatonStep (presented .sync State.reset.msg 0x7CD215D8 [])).1 ≠ 0 ∧
    (automatonStep (presented .synched State.reset.msg 0x7A89C197 [])).1 ≠ 0 := by
  decide +kernel

/-- ReachableControlStates: a legal configuration of each mode, at both ends of the range of L. -/
theorem witness_reachable :
    (∃ c : Construction, c.initialState = .searchSync ∧ 2 ≤ c.preambleLen ∧ c.preambleLen = 32) ∧
    (∃ c : Construction, c.initialState = .searchPreambleStart ∧ c.preambleLen = 2 ∧
      c.preambleLen ≤ 32) :=
  ⟨⟨Config.defaults, by decide⟩,
   ⟨{ Config.defaults with initialState := .searchPreambleStart, preambleLen := 2 }, by decide⟩⟩

/-- EntriesIntoSyncAndSynched: each of the four entries (R109, R114, R113, R110). -/
theorem witness_entries :
    (automatonStep { inState .searchPreambleEnd with acc := 0xAAAAAAAA, input := [true] }).2.state =
      .sync ∧
    (automatonStep
      { presented .synched State.reset.msg 0x7A89C197 [] with wordCount := 15 }).2.state = .sync ∧
    (automatonStep (presented .sync State.reset.msg 0x7CD215D8 [])).2.state = .synched ∧
    (automatonStep { State.reset with acc := 0x3E690AEC, input := [true] }).2.state = .synched := by
  decide +kernel

/-- WordStepsLeaveTheAccumulator: 32 symbols, no more. -/
theorem witness_accumulator : 32 ≤ (presented .sync State.reset.msg 0x7CD215D8 []).input.length := by decide

/-- OnlyResetReconfigures, DebugAndRateHaveNoEffect and TraceIsTheTotalOrder. -/
theorem witness_other_operations :
    (∀ c, Instr.work [true] ≠ .reset c) ∧ (∀ v, Instr.work [true] ≠ .setDebug v) ∧
    Instr.work [true] ≠ .status ∧
    ({ State.reset with syncInBatchSeen := true } : State).syncInBatchSeen = true :=
  ⟨fun _ h => (nomatch h), fun _ h => (nomatch h), fun h => (nomatch h), rfl⟩

/-- A batch of sixteen IDLE words. -/
def idleBatch : List Symbol := (List.replicate 16 (symbolsOfWord 0x7A89C197)).flatten

/-- BatchBoundary, first clause: sixteen words and none. -/
theorem witness_batch :
    (inState .synched).state = .synched ∧ (inState .synched).wordCount = 0 ∧
    idleBatch.length = 32 * 16 ∧ ([] : List Symbol).length = 32 * 0 ∧
    ∀ k, k < 16 → Codec.uncorrectable (wordAt idleBatch k) = false := by
  decide +kernel

/-- BatchBoundary, second clause: an uncorrectable word at index 15 and at index 0. -/
theorem witness_batch_broken :
    ((idleBatch.take 480 ++ symbolsOfWord 0x7A89C190).length = 32 * (15 + 1) ∧
      (∀ j, j < 15 →
        Codec.uncorrectable (wordAt (idleBatch.take 480 ++ symbolsOfWord 0x7A89C190) j) = false) ∧
      Codec.uncorrectable (wordAt (idleBatch.take 480 ++ symbolsOfWord 0x7A89C190) 15) = true) ∧
    (symbolsOfWord 0x7A89C190).length = 32 * (0 + 1) ∧
    Codec.uncorrectable (wordAt (symbolsOfWord 0x7A89C190) 0) = true := by
  decide +kernel

/-- AcquisitionAtTheLastSyncSymbol: the prefix of program P1 and no prefix. -/
theorem witness_acquisition :
    State.reset.state = .searchSync ∧
    (∀ k, k < 5 + 32 → 0 < k →
      2 < Codec.hamming
        (accAfter State.reset.acc
          (([true, false, true, true, false] ++ symbolsOfWord 0x7CD215D8).take k)) 0x7CD215D8) ∧
    (∀ k, k < 0 + 32 → 0 < k →
      2 < Codec.hamming (accAfter State.reset.acc (([] ++ symbolsOfWord 0x7CD215D8).take k)) 0x7CD215D8) := by
  decide +kernel

/-- PreambleModeMissesAStandardSync. -/
theorem witness_preamble_mode :
    ∃ s : State, s.state = .searchPreambleEnd ∧ s.acc = 0xAAAAAAAA ∧ s.cfg.preambleLen = 32 ∧
      s.cfg.initialState = .searchPreambleStart :=
  ⟨{ inState .searchPreambleEnd with
      acc := 0xAAAAAAAA
      cfg := { State.reset.cfg with initialState := .searchPreambleStart } }, by decide⟩

/-- InstancesAreIndependent: a bank with an absent and a present instance, a position past its end, and a legal and an
illegal RESET. -/
theorem witness_bank :
    ([none, some State.reset] : Bank).getD 2 none = none ∧
    seen (·.cfg.preambleLen) (exec (.reset Config.defaults) State.reset) = some 32 ∧
    refusal (exec (.reset { Config.defaults with preambleLen := 1 }) State.reset) =
      some .illegalPreambleLen ∧
    ([none, some State.reset] : Bank).getD 1 none = some State.reset ∧
    ([none, some State.reset] : Bank).getD 0 none = none ∧
    seen (·.debug) (exec (.setDebug true) State.reset) = some true ∧
    (∀ c, Instr.status ≠ .reset c) :=
  ⟨rfl, by decide, by decide, rfl, rfl, by decide, fun _ h => (nomatch h)⟩

/-- CodecCostIsBounded: a valid word and an uncorrectable one. -/
theorem witness_cost : Codec.syndrome 0x7CD215D8 = 0 ∧ Codec.uncorrectable 0x55555555 = true := by
  decide +kernel

end Sys2Proof.Tests
end

section
/-! SUPPORT. Counts of set bits, and how far CORRECT moves a word (R86, R88, R91). -/

namespace Sys2Proof.Codec

/-- Words without a common set bit: the counts add up. -/
theorem popcountBelow_xor_of_disjoint {x y : Word} (h : x &&& y = 0) (n : Nat) :
    popcountBelow n (x ^^^ y) = popcountBelow n x + popcountBelow n y := by
  induction n with
  | zero => rfl
  | succ n ih =>
    have hn : (x.getLsbD n && y.getLsbD n) = false := by
      rw [← BitVec.getLsbD_and, h, BitVec.ofNat_eq_ofNat, BitVec.getLsbD_zero]
    cases hx : x.getLsbD n <;> cases hy : y.getLsbD n <;>
      simp [popcountBelow, ih, hx, hy] at hn ⊢ <;> omega

/-- The word with only bit a set counts one set bit, once bit a is in range. -/
theorem popcountBelow_shiftLeft_one (a : Nat) {n : Nat} (hn : n ≤ 32) :
    popcountBelow n (1#32 <<< a) = if a < n then 1 else 0 := by
  induction n with
  | zero => rfl
  | succ n ih =>
    have hbit : (1#32 <<< a).getLsbD n = decide (n = a) := by
      simp only [BitVec.getLsbD_shiftLeft, BitVec.getLsbD_one]
      grind
    rw [popcountBelow, ih (by omega), hbit]
    rcases Nat.lt_trichotomy a n with h | h | h
    · simp [h, h.ne', Nat.lt_succ_of_lt h]
    · simp [h]
    · simp [h.ne, Nat.not_lt.mpr h.le, Nat.not_lt.mpr h]

theorem popcount_shiftLeft_one {a : Nat} (ha : a < 32) : popcount (1#32 <<< a) = 1 := by
  rw [popcount, popcountBelow_shiftLeft_one a (Nat.le_refl 32), if_pos ha]

theorem popcount_two_bits {a b : Nat} (hab : a < b) (hb : b < 32) :
    popcount (1#32 <<< a ^^^ 1#32 <<< b) = 2 := by
  have hdisjoint : (1#32 <<< a) &&& (1#32 <<< b) = 0 := by
    ext i hi
    simp [BitVec.getElem_shiftLeft, BitVec.getElem_one]
    omega
  rw [popcount, popcountBelow_xor_of_disjoint hdisjoint, popcountBelow_shiftLeft_one a (Nat.le_refl 32),
    popcountBelow_shiftLeft_one b (Nat.le_refl 32), if_pos hb, if_pos (hab.trans hb)]

/-- The distance between a word and its sum with an error pattern is the pattern's weight. -/
theorem hamming_xor_self (w e : Word) : hamming (w ^^^ e) w = popcount e := by
  rw [hamming, BitVec.xor_comm w e, BitVec.xor_assoc, BitVec.xor_self, BitVec.xor_zero]

/-- CORRECT leaves the word, flips one bit of it, or flips two (R91). -/
theorem correct_cases (w : Word) :
    correct w = w ∨ (∃ a, a < 32 ∧ correct w = w ^^^ 1#32 <<< a) ∨
    ∃ a b, a < b ∧ b < 32 ∧ correct w = w ^^^ (1#32 <<< a ^^^ 1#32 <<< b) := by
  unfold correct
  split
  · exact .inl rfl
  · split
    next c hfound =>
      rcases List.mem_append.mp (List.mem_of_find?_eq_some hfound) with hsingle | hdouble
      · obtain ⟨a, ha, rfl⟩ := List.mem_map.mp hsingle
        exact .inr (.inl ⟨a, List.mem_range.mp ha, rfl⟩)
      · obtain ⟨a, ha, hflip⟩ := List.mem_flatMap.mp hdouble
        obtain ⟨b, hb, rfl⟩ := List.mem_map.mp hflip
        rw [List.mem_range] at ha
        rw [List.mem_range'_1] at hb
        exact .inr (.inr ⟨a, b, by omega, by omega, BitVec.xor_assoc ..⟩)
    next => exact .inl rfl

/-- A word that CORRECT changes is changed in one bit or in two. -/
theorem hamming_correct_of_ne {w : Word} (h : correct w ≠ w) :
    hamming (correct w) w = 1 ∨ hamming (correct w) w = 2 := by
  rcases correct_cases w with hw | ⟨a, ha, hc⟩ | ⟨a, b, hab, hb, hc⟩
  · exact absurd hw h
  · exact .inl (by rw [hc, hamming_xor_self, popcount_shiftLeft_one ha])
  · exact .inr (by rw [hc, hamming_xor_self, popcount_two_bits hab hb])

/-- UNCORRECTABLE is that CORRECT's result is not valid (R95). -/
theorem uncorrectable_eq_not_valid (w : Word) : uncorrectable w = !valid (correct w) := rfl

end Sys2Proof.Codec
end

section
/-! SUPPORT. Field rules of the word classes and of WORK's loop that Laws/ does not list. -/

namespace Sys2Proof.Machine

/-- The word that a word step reads, spelled as the statements spell it (R48). -/
theorem nextWord_eq (s : State) : nextWord s = wordOfSymbols (s.input.take 32) := rfl

@[simp] theorem syncInBatchWord_state (i : Nat) (s : State) : (syncInBatchWord i s).state = s.state := rfl

@[simp] theorem syncInBatchWord_acc (i : Nat) (s : State) : (syncInBatchWord i s).acc = s.acc := rfl

@[simp] theorem noteCorrection_state (c w : Word) (s : State) : (noteCorrection c w s).state = s.state := by
  unfold noteCorrection; split <;> rfl

@[simp] theorem noteCorrection_acc (c w : Word) (s : State) : (noteCorrection c w s).acc = s.acc := by
  unfold noteCorrection; split <;> rfl

@[simp] theorem assemble_state (c : Word) (i : Nat) (s : State) : (assemble c i s).state = s.state := by
  obtain ⟨_, _, hstate, _⟩ := assemble_frame c i s
  exact hstate

@[simp] theorem assemble_acc (c : Word) (i : Nat) (s : State) : (assemble c i s).acc = s.acc := by
  obtain ⟨_, _, _, hacc, _⟩ := assemble_frame c i s
  exact hacc

@[simp] theorem loseSync_acc (e : Event) (s : State) : (loseSync e s).acc = 0 := by
  obtain ⟨_, _, _, hacc, _⟩ := loseSync_frame e s
  exact hacc

@[simp] theorem countWord_acc (s : State) : (countWord s).acc = s.acc := by rw [countWord_eq]

/-- What every step of the automaton keeps, WORK's loop keeps (R101). -/
theorem runSteps_keeps {P : State → Prop} (hP : ∀ s, P s → P (automatonStep s).2) (fuel k : Nat) {s : State}
    (h : P s) : P (runSteps fuel k s).2 := by
  induction fuel generalizing s k with
  | zero => exact h
  | succ fuel ih =>
    have hnext := hP s h
    rcases hstep : automatonStep s with ⟨n, t⟩
    rw [hstep] at hnext
    cases n with
    | zero => rw [runSteps_stop (by rw [hstep])]; exact h
    | succ n => rw [runSteps_go hstep]; exact ih _ hnext

end Sys2Proof.Machine
end

section
/-! The invariant of a block (family 10_state): it holds at reset, and each shared operation, each step of the
automaton and each action of the host keeps it. -/

namespace Sys2Proof.Machine

/-! ## The message state -/

/-- A bit into the text decoder: the count stays in range, the decoder holds one bit more, and nothing but the text
decoder is written (R131). -/
theorem feedTextBit_spec (m : Message) (b : Bool) (h : m.tcnt ≤ 6) :
    (feedTextBit m b).tcnt ≤ 6 ∧
    7 * (feedTextBit m b).text.length + (feedTextBit m b).tcnt = 7 * m.text.length + m.tcnt + 1 ∧
    (feedTextBit m b).active = m.active ∧ (feedTextBit m b).address = m.address ∧
    (feedTextBit m b).function = m.function ∧ (feedTextBit m b).numeric = m.numeric := by
  unfold feedTextBit
  dsimp only
  split
  next hfull =>
    have hseven : m.tcnt + 1 = 7 := hfull
    refine ⟨Nat.zero_le 6, ?_, rfl, rfl, rfl, rfl⟩
    rw [List.length_append, List.length_singleton]
    dsimp only
    omega
  next hroom =>
    have hroom' : m.tcnt + 1 ≠ 7 := hroom
    exact ⟨by dsimp only; omega, rfl, rfl, rfl, rfl, rfl⟩

theorem foldl_feedTextBit_spec (bits : List Bool) (m : Message) (h : m.tcnt ≤ 6) :
    (bits.foldl feedTextBit m).tcnt ≤ 6 ∧
    7 * (bits.foldl feedTextBit m).text.length + (bits.foldl feedTextBit m).tcnt =
      7 * m.text.length + m.tcnt + bits.length ∧
    (bits.foldl feedTextBit m).active = m.active ∧ (bits.foldl feedTextBit m).address = m.address ∧
    (bits.foldl feedTextBit m).function = m.function ∧
    (bits.foldl feedTextBit m).numeric = m.numeric := by
  induction bits generalizing m with
  | nil => exact ⟨h, rfl, rfl, rfl, rfl, rfl⟩
  | cons b bits ih =>
    obtain ⟨hle, hbits, hactive, haddress, hfunction, hnumeric⟩ := feedTextBit_spec m b h
    obtain ⟨hle', hbits', hframe⟩ := ih (feedTextBit m b) hle
    rw [hactive, haddress, hfunction, hnumeric] at hframe
    exact ⟨hle', by rw [List.foldl_cons, List.length_cons]; omega, hframe⟩

/-- The reset message is sound (R128). -/
theorem Message.sound_blank :
    Message.Sound { active := false, address := 0, function := 0, text := [], numeric := [], treg := 0, tcnt := 0 } :=
  ⟨Nat.zero_le 6, fun _ => ⟨rfl, rfl⟩, rfl⟩

/-- TEXT_FEED hands the text decoder 20 bits and writes nothing else (R131). -/
theorem feedText_spec (p : Payload) (m : Message) (h : m.tcnt ≤ 6) :
    (feedText p m).tcnt ≤ 6 ∧
    7 * (feedText p m).text.length + (feedText p m).tcnt = 7 * m.text.length + m.tcnt + 20 ∧
    (feedText p m).active = m.active ∧ (feedText p m).address = m.address ∧
    (feedText p m).function = m.function ∧ (feedText p m).numeric = m.numeric :=
  foldl_feedTextBit_spec (payloadBits p) m h

/-- A data word gives the numeric decoder the same 20 bits as five digits (R130, R133). -/
theorem Message.Sound.feed {m : Message} (h : m.Sound) (p : Payload) :
    (feedNumeric p (feedText p m)).Sound := by
  obtain ⟨hle, hbits, hactive, haddress, hfunction, hnumeric⟩ := feedText_spec p m h.tcnt_le
  have hblank := h.inactive_blank
  have hsame := h.same_bits
  constructor <;> simp only [feedNumeric]
  · exact hle
  · rwa [hactive, haddress, hfunction]
  · rw [hnumeric, List.length_append, payloadDigits]
    simp only [List.length_cons, List.length_nil]
    omega

/-! ## The five events that are appended (R151) -/

theorem Event.sound_syncMiss {w : Word} (h : 2 < Codec.hamming w Config.syncWord) :
    Event.Sound { kind := .syncMiss, info := .word w } := .inl ⟨rfl, w, rfl, h⟩

theorem Event.sound_uncorrectable {w : Word} (h : Codec.uncorrectable w = true) :
    Event.Sound { kind := .uncorrectable, info := .word w } := .inr (.inl ⟨rfl, w, rfl, h⟩)

theorem Event.sound_syncInBatch {i : Nat} (h : i < 16) :
    Event.Sound { kind := .syncInBatch, info := .count i } := .inr (.inr (.inl ⟨rfl, i, rfl, h⟩))

theorem Event.sound_idleNoMessage : Event.Sound { kind := .idleNoMessage, info := .word Config.idleWord } :=
  .inr (.inr (.inr (.inl ⟨rfl, rfl⟩)))

theorem Event.sound_corrected {n : Nat} (h : n = 1 ∨ n = 2) :
    Event.Sound { kind := .corrected, info := .count n } :=
  .inr (.inr (.inr (.inr ⟨rfl, h.imp (congrArg EventInfo.count) (congrArg EventInfo.count)⟩)))

/-! ## The invariant during a WORK -/

/-- The invariant as it stands between two steps of a WORK, which may hold presented symbols. -/
def State.InvDuringWork (s : State) : Prop := State.Inv { s with input := [] }

/-- Between operations nothing is presented, and the two invariants are the same. -/
theorem State.Inv.duringWork {s : State} (h : s.Inv) (buf : List Symbol) :
    State.InvDuringWork { s with input := buf } :=
  { h with no_input := rfl }

namespace State.InvDuringWork

variable {s : State}

theorem consume (h : s.InvDuringWork) (n : Nat) : (consume n s).InvDuringWork := { h with }

theorem shiftSymbol (h : s.InvDuringWork) (x : Symbol) : (shiftSymbol x s).InvDuringWork := { h with }

theorem raiseEvent (h : s.InvDuringWork) {e : Event} (he : e.Sound) : (raiseEvent e s).InvDuringWork :=
  { h with events := List.forall_mem_append.mpr ⟨h.events, List.forall_mem_singleton.mpr he⟩ }

theorem withMessage (h : s.InvDuringWork) {m : Message} (hm : m.Sound) :
    State.InvDuringWork { s with msg := m } := { h with message := hm }

theorem msgReset (h : s.InvDuringWork) : (msgReset s).InvDuringWork := h.withMessage Message.sound_blank

/-- A guarded emission appends only a record that satisfies E (R126, R140). -/
theorem emitIfEmissible (h : s.InvDuringWork) (eom : Bool) : (emitIfEmissible eom s).InvDuringWork := by
  rcases emitIfEmissible_cases eom s with ⟨hE, heq⟩ | ⟨_, heq⟩ <;> rw [heq]
  · have hrecord := (emissible_iff s.msg).mp hE
    exact { h with
      records := List.forall_mem_append.mpr ⟨h.records, List.forall_mem_singleton.mpr ⟨hrecord, rfl⟩⟩ }
  · exact h

theorem enterSynched (h : s.InvDuringWork) : (enterSynched s).InvDuringWork :=
  { h with
    count_le := Nat.zero_le 16
    count_synched := fun _ => Nat.zero_lt_succ 15
    direct_sync := fun _ => ⟨nofun, nofun⟩
    sync_after_batch := nofun }

/-- The initial state is a search state (R116), so nothing is asked of `word_count` there. -/
theorem enterInitial (h : s.InvDuringWork) : (enterInitial s).InvDuringWork := by
  have hlegal : s.cfg.initialState = .searchSync ∨ s.cfg.initialState = .searchPreambleStart := h.initial_legal
  refine { h with count_synched := ?_, direct_sync := ?_, sync_after_batch := ?_ } <;>
    simp only [enterInitial_state, enterInitial_cfg] <;>
    rcases hlegal with hi | hi <;> simp [hi]

theorem loseSync (h : s.InvDuringWork) {e : Event} (he : e.Sound) : (loseSync e s).InvDuringWork :=
  ((h.raiseEvent he).emitIfEmissible false).msgReset.enterInitial

/-- Counting a word in `Synched`: the count reaches 16 exactly when the batch ends (R114). -/
theorem countWord (h : s.InvDuringWork) (hs : s.state = .synched) : (countWord s).InvDuringWork := by
  have hlt : s.wordCount < 16 := h.count_synched hs
  rw [countWord_eq]
  by_cases hend : s.wordCount + 1 = 16
  · rw [if_pos hend]
    exact { h with
      count_le := hend.le
      count_synched := nofun
      direct_sync := fun _ => ⟨nofun, nofun⟩
      sync_after_batch := fun _ _ => hend }
  · rw [if_neg hend]
    have hsync : s.state ≠ .sync := by rw [hs]; nofun
    exact { h with
      count_le := hlt
      count_synched := fun _ => by change s.wordCount + 1 < 16; omega
      sync_after_batch := fun _ hsync' => absurd hsync' hsync }

/-! ## The word classes -/

theorem idleWord (h : s.InvDuringWork) : (idleWord s).InvDuringWork := by
  unfold Machine.idleWord
  split
  · exact (h.emitIfEmissible true).msgReset
  · exact h.raiseEvent Event.sound_idleNoMessage

theorem dataWord (h : s.InvDuringWork) (c : Word) : (dataWord c s).InvDuringWork := by
  have hmessage : s.msg.Sound := h.message
  exact h.withMessage (hmessage.feed (payload c))

theorem addressWord (h : s.InvDuringWork) (c : Word) (i : Nat) : (addressWord c i s).InvDuringWork :=
  h.withMessage ⟨Nat.zero_le 6, nofun, rfl⟩

theorem syncInBatchWord (h : s.InvDuringWork) {i : Nat} (hi : i < 16) :
    (syncInBatchWord i s).InvDuringWork := by
  have hflag : (setSyncInBatchSeen s).InvDuringWork := { h with }
  exact hflag.raiseEvent (Event.sound_syncInBatch hi)

theorem assemble (h : s.InvDuringWork) (c : Word) (i : Nat) : (assemble c i s).InvDuringWork := by
  unfold Machine.assemble
  split
  · exact h.idleWord
  · split
    · exact h.dataWord c
    · exact h.addressWord c i

/-- CORRECTED counts the one or two bits that CORRECT changed (R153). -/
theorem noteCorrection (h : s.InvDuringWork) (w : Word) :
    (noteCorrection (Codec.correct w) w s).InvDuringWork := by
  rcases noteCorrection_cases (Codec.correct w) w s with ⟨_, heq⟩ | ⟨hne, heq⟩ <;> rw [heq]
  · exact h
  · exact h.raiseEvent (Event.sound_corrected (Codec.hamming_correct_of_ne hne))

/-- A word read in `Synched` (R114). -/
theorem synchedWord (h : s.InvDuringWork) (hs : s.state = .synched) (w : Word) :
    (synchedWord w s).InvDuringWork := by
  have hnoted := h.noteCorrection w
  have hi : s.wordCount < 16 := h.count_synched hs
  have hstate := (noteCorrection_state (Codec.correct w) w s).trans hs
  rcases synchedWord_cases w s with ⟨hv, heq⟩ | ⟨_, _, heq⟩ | ⟨_, _, heq⟩ <;> rw [heq]
  · have hlost : Codec.uncorrectable w = true := by rw [Codec.uncorrectable_eq_not_valid, hv]; rfl
    exact h.loseSync (Event.sound_uncorrectable hlost)
  · exact (hnoted.syncInBatchWord hi).countWord ((syncInBatchWord_state _ _).trans hstate)
  · exact (hnoted.assemble _ _).countWord ((assemble_state _ _ _).trans hstate)

/-! ## The steps -/

/-- Outside direct-sync mode nothing is asked of the two states that only the preamble search enters. -/
theorem enterPreambleEnd (h : s.InvDuringWork) (hmode : s.cfg.initialState ≠ .searchSync) :
    State.InvDuringWork { s with state := .searchPreambleEnd } :=
  { h with
    count_synched := nofun
    direct_sync := fun hdirect => absurd hdirect hmode
    sync_after_batch := nofun }

theorem enterSync (h : s.InvDuringWork) (hmode : s.cfg.initialState ≠ .searchSync) :
    State.InvDuringWork { s with state := .sync } :=
  { h with
    count_synched := nofun
    direct_sync := fun hdirect => absurd hdirect hmode
    sync_after_batch := fun hdirect _ => absurd hdirect hmode }

theorem stepSps (h : s.InvDuringWork) (hs : s.state = .searchPreambleStart) :
    (stepSps s).2.InvDuringWork := by
  have hmode : s.cfg.initialState ≠ .searchSync := fun hdirect => (h.direct_sync hdirect).1 hs
  cases hin : s.input with
  | nil => rw [stepSps_nil hin]; exact h
  | cons x rest =>
    rw [stepSps_cons hin]
    dsimp only
    split
    · exact (h.shiftSymbol x).enterPreambleEnd hmode
    · exact h.shiftSymbol x

theorem stepSpe (h : s.InvDuringWork) (hs : s.state = .searchPreambleEnd) :
    (stepSpe s).2.InvDuringWork := by
  have hmode : s.cfg.initialState ≠ .searchSync := fun hdirect => (h.direct_sync hdirect).2 hs
  cases hin : s.input with
  | nil => rw [stepSpe_nil hin]; exact h
  | cons x rest =>
    rw [stepSpe_cons hin]
    dsimp only
    split
    · exact h.shiftSymbol x
    · exact (h.shiftSymbol x).enterSync hmode

theorem stepSearchSync (h : s.InvDuringWork) : (stepSearchSync s).2.InvDuringWork := by
  cases hin : s.input with
  | nil => rw [stepSearchSync_nil hin]; exact h
  | cons x rest =>
    rw [stepSearchSync_cons hin]
    dsimp only
    split
    · exact (h.shiftSymbol x).enterSynched
    · exact h.shiftSymbol x

theorem stepSync (h : s.InvDuringWork) : (stepSync s).2.InvDuringWork := by
  rcases Nat.lt_or_ge s.input.length 32 with hlen | hlen
  · rw [stepSync_short hlen]; exact h
  · rw [stepSync_full hlen]
    dsimp only
    split
    · exact (h.consume 32).enterSynched
    next hmiss =>
      rw [syncMatches_iff, Nat.not_le] at hmiss
      exact (h.consume 32).loseSync (Event.sound_syncMiss hmiss)

theorem stepSynched (h : s.InvDuringWork) (hs : s.state = .synched) : (stepSynched s).2.InvDuringWork := by
  rcases Nat.lt_or_ge s.input.length 32 with hlen | hlen
  · rw [stepSynched_short hlen]; exact h
  · rw [stepSynched_full hlen]; dsimp only; exact (h.consume 32).synchedWord hs (nextWord s)

/-- Every step of the automaton keeps the invariant (R102). -/
theorem automatonStep (h : s.InvDuringWork) : (automatonStep s).2.InvDuringWork := by
  obtain ⟨hsps, hspe, hsearch, hsync, hsynched⟩ := automatonStep_of_state s
  cases hs : s.state with
  | searchPreambleStart => rw [hsps hs]; exact h.stepSps hs
  | searchPreambleEnd => rw [hspe hs]; exact h.stepSpe hs
  | sync => rw [hsync hs]; exact h.stepSync
  | searchSync => rw [hsearch hs]; exact h.stepSearchSync
  | synched => rw [hsynched hs]; exact h.stepSynched hs

end State.InvDuringWork

/-! ## The host's actions -/

namespace State.Inv

variable {s t : State}

theorem dropPending (h : s.Inv) (rest : List HostAction) : State.Inv { s with pending := rest } := { h with }

theorem takeRecords (h : s.Inv) (n : Nat) : (takeRecords n s).Inv :=
  { h with records := fun r hr => h.records r (List.mem_of_mem_drop hr) }

theorem takeEvents (h : s.Inv) (n : Nat) : (takeEvents n s).Inv :=
  { h with events := fun e he => h.events e (List.mem_of_mem_drop he) }

/-- A legal construction has the invariant (R170). -/
theorem construct {c : Construction} (hstate : legalInitialState c.initialState = true)
    (hlen : legalPreambleLen c.preambleLen = true) (pending : List HostAction) :
    (construct c pending).Inv := by
  have hlegal := (legalInitialState_iff c.initialState).mp hstate
  obtain ⟨hsynched, hsync, hspe⟩ :
      c.initialState ≠ .synched ∧ c.initialState ≠ .sync ∧ c.initialState ≠ .searchPreambleEnd := by
    rcases hlegal with hi | hi <;> simp [hi]
  exact
    { initial_legal := hlegal
      preamble_legal := (legalPreambleLen_iff c.preambleLen).mp hlen
      count_le := Nat.zero_le 16
      count_synched := fun hs => absurd hs hsynched
      direct_sync := fun hdirect => ⟨fun hs => (nomatch hs.symm.trans hdirect), hspe⟩
      sync_after_batch := fun _ hs => absurd hs hsync
      message := Message.sound_blank
      records := fun _ hr => absurd hr List.not_mem_nil
      events := fun _ he => absurd he List.not_mem_nil
      no_input := rfl
      nothing_placed := rfl }

/-- Each of the four host operations keeps the invariant (R100). -/
theorem exec_hostOperation (h : s.Inv) {i : Instr} (hi : isHostOperation i) (ht : exec i s = .next t) :
    t.Inv := by
  rcases hi with ⟨c, rfl⟩ | ⟨buf, rfl⟩ | ⟨v, rfl⟩ | rfl
  · change execReset c s = .next t at ht
    unfold execReset at ht
    split at ht
    next hstate =>
      split at ht
      next hlen => cases ht; exact construct hstate hlen s.pending
      next => cases ht
    next => cases ht
  · cases ht
    have hend := runSteps_keeps (P := State.InvDuringWork) (fun _ hs => hs.automatonStep) (buf.length + 1) 0
      (h.duringWork buf)
    exact { hend with }
  · cases ht; exact { h with }
  · cases ht; exact { h with }

/-- Every action that the host has pending keeps the invariant (R100). -/
theorem runHost (h : s.Inv) (ht : runHost s = .next t) : t.Inv := by
  rcases runHost_cases s with
    ⟨_, hidle⟩ | ⟨rest, ⟨n, _, hrun⟩ | ⟨n, _, hrun⟩ | ⟨code, operand, _, hrun⟩⟩
  · rw [hidle] at ht; cases ht; exact h
  · rw [hrun] at ht; cases ht; exact (h.dropPending rest).takeRecords n
  · rw [hrun] at ht; cases ht; exact (h.dropPending rest).takeEvents n
  · rw [hrun] at ht
    cases hd : decodeHostOp code operand with
    | error e => rw [hd] at ht; cases ht
    | ok i =>
      rw [hd] at ht
      exact (h.dropPending rest).exec_hostOperation (decodeHostOp_isHostOperation hd) ht

theorem step (h : s.Inv) (ht : step s = .next t) : t.Inv :=
  h.runHost ((step_of_host h.nothing_placed).symm.trans ht)

end State.Inv

/-- Settles O41: nothing is placed, so the step is an action of the host, and each of these keeps the invariant. -/
theorem stepKeepsTheInvariant : Obligations.StepKeepsTheInvariant := fun _ _ h ht => h.step ht

/-- Settles O40: the reset state is the construction with the default configuration (R170). -/
theorem resetSatisfiesTheInvariant : Obligations.ResetSatisfiesTheInvariant :=
  State.Inv.construct (c := Config.defaults) rfl rfl []

end Sys2Proof.Machine
end

section
/-! The frames of the operations (family 10_state): the accumulator across a word step, the registers that only RESET
writes, and the registers that no step reads. -/

namespace Sys2Proof.Machine

/-! ## The accumulator -/

/-- A word of the batch leaves the accumulator alone unless it loses sync (R117). -/
theorem synchedWord_acc (w : Word) (s : State) :
    (synchedWord w s).acc = if Codec.uncorrectable w then 0 else s.acc := by
  rw [Codec.uncorrectable_eq_not_valid]
  rcases synchedWord_cases w s with ⟨hv, h⟩ | ⟨hv, _, h⟩ | ⟨hv, _, h⟩ <;> rw [h, hv]
  · exact loseSync_acc _ s
  · rw [countWord_acc, syncInBatchWord_acc, noteCorrection_acc]; rfl
  · rw [countWord_acc, assemble_acc, noteCorrection_acc]; rfl

/-- Settles O44: a matched or a correctable word keeps the accumulator, and loss of sync clears it. -/
theorem wordStepsLeaveTheAccumulator : Obligations.WordStepsLeaveTheAccumulator := by
  intro s
  obtain ⟨_, _, _, hsync, hsynched⟩ := automatonStep_of_state s
  constructor
  · intro hs hlen
    rw [hsync hs, stepSync_full hlen, ← nextWord_eq]
    by_cases hmatch : Codec.hamming (nextWord s) 0x7CD215D8 ≤ 2
    · simp only [(syncMatches_iff _).mpr hmatch, hmatch, if_true, enterSynched_acc, consume_acc]
    · have hmiss : ¬ syncMatches (nextWord s) = true := mt (syncMatches_iff _).mp hmatch
      rw [if_neg hmatch, if_neg hmiss, loseSync_acc]
  · intro hs hlen
    rw [hsynched hs, stepSynched_full hlen, ← nextWord_eq]
    dsimp only
    rw [synchedWord_acc, consume_acc]

/-! ## What every operation but RESET and SET_DEBUG keeps -/

/-- From s to t the configuration, `debug` and what the host has placed or pending are unchanged, and the sticky flag is
not cleared (R31 to R36). -/
structure State.KeepsSetup (s t : State) : Prop where
  cfg_eq : t.cfg = s.cfg
  sticky : s.syncInBatchSeen = true → t.syncInBatchSeen = true
  debug_eq : t.debug = s.debug
  pending_eq : t.pending = s.pending
  placed_eq : t.placed = s.placed

namespace State.KeepsSetup

theorem refl (s : State) : KeepsSetup s s := ⟨rfl, id, rfl, rfl, rfl⟩

theorem trans {s t u : State} (h : KeepsSetup s t) (h' : KeepsSetup t u) : KeepsSetup s u :=
  ⟨h'.cfg_eq.trans h.cfg_eq, h'.sticky ∘ h.sticky, h'.debug_eq.trans h.debug_eq,
    h'.pending_eq.trans h.pending_eq, h'.placed_eq.trans h.placed_eq⟩

theorem withMessage (m : Message) (s : State) : KeepsSetup s { s with msg := m } := ⟨rfl, id, rfl, rfl, rfl⟩

theorem consume (n : Nat) (s : State) : KeepsSetup s (consume n s) := ⟨rfl, id, rfl, rfl, rfl⟩

theorem shiftSymbol (x : Symbol) (s : State) : KeepsSetup s (shiftSymbol x s) := ⟨rfl, id, rfl, rfl, rfl⟩

theorem enterSynched (s : State) : KeepsSetup s (enterSynched s) := ⟨rfl, id, rfl, rfl, rfl⟩

theorem raiseEvent (e : Event) (s : State) : KeepsSetup s (raiseEvent e s) := ⟨rfl, id, rfl, rfl, rfl⟩

theorem loseSync (e : Event) (s : State) : KeepsSetup s (loseSync e s) := by
  obtain ⟨_, _, _, _, _, hcfg, hdebug, hseen, _, _, _, hpending, hplaced⟩ := loseSync_frame e s
  exact ⟨hcfg, hseen.trans, hdebug, hpending, hplaced⟩

theorem idleWord (s : State) : KeepsSetup s (idleWord s) := by
  obtain ⟨_, _, _, _, _, hcfg, hdebug, hseen, _, hpending, hplaced⟩ := idleWord_frame s
  exact ⟨hcfg, hseen.trans, hdebug, hpending, hplaced⟩

theorem assemble (c : Word) (i : Nat) (s : State) : KeepsSetup s (assemble c i s) := by
  obtain ⟨_, _, _, _, _, hcfg, hdebug, hseen, _, hpending, hplaced⟩ := assemble_frame c i s
  exact ⟨hcfg, hseen.trans, hdebug, hpending, hplaced⟩

/-- The one operation that writes the sticky flag sets it (R31). -/
theorem syncInBatchWord (i : Nat) (s : State) : KeepsSetup s (syncInBatchWord i s) :=
  ⟨rfl, fun _ => rfl, rfl, rfl, rfl⟩

theorem noteCorrection (c w : Word) (s : State) : KeepsSetup s (noteCorrection c w s) := by
  rcases noteCorrection_cases c w s with ⟨_, h⟩ | ⟨_, h⟩ <;> rw [h]
  · exact refl s
  · exact raiseEvent _ s

theorem countWord (s : State) : KeepsSetup s (countWord s) := by
  rw [countWord_eq]; exact ⟨rfl, id, rfl, rfl, rfl⟩

theorem synchedWord (w : Word) (s : State) : KeepsSetup s (synchedWord w s) := by
  rcases synchedWord_cases w s with ⟨_, h⟩ | ⟨_, _, h⟩ | ⟨_, _, h⟩ <;> rw [h]
  · exact loseSync _ s
  · exact ((noteCorrection _ w s).trans (syncInBatchWord _ _)).trans (countWord _)
  · exact ((noteCorrection _ w s).trans (assemble _ _ _)).trans (countWord _)

theorem stepSps (s : State) : KeepsSetup s (stepSps s).2 := by
  cases hin : s.input with
  | nil => rw [stepSps_nil hin]; exact refl s
  | cons x rest =>
    rw [stepSps_cons hin]
    dsimp only
    split <;> exact ⟨rfl, id, rfl, rfl, rfl⟩

theorem stepSpe (s : State) : KeepsSetup s (stepSpe s).2 := by
  cases hin : s.input with
  | nil => rw [stepSpe_nil hin]; exact refl s
  | cons x rest =>
    rw [stepSpe_cons hin]
    dsimp only
    split <;> exact ⟨rfl, id, rfl, rfl, rfl⟩

theorem stepSearchSync (s : State) : KeepsSetup s (stepSearchSync s).2 := by
  cases hin : s.input with
  | nil => rw [stepSearchSync_nil hin]; exact refl s
  | cons x rest =>
    rw [stepSearchSync_cons hin]
    dsimp only
    split
    · exact (shiftSymbol x s).trans (enterSynched _)
    · exact shiftSymbol x s

theorem stepSync (s : State) : KeepsSetup s (stepSync s).2 := by
  rcases Nat.lt_or_ge s.input.length 32 with hlen | hlen
  · rw [stepSync_short hlen]; exact refl s
  · rw [stepSync_full hlen]
    dsimp only
    split
    · exact (consume 32 s).trans (enterSynched _)
    · exact (consume 32 s).trans (loseSync _ _)

theorem stepSynched (s : State) : KeepsSetup s (stepSynched s).2 := by
  rcases Nat.lt_or_ge s.input.length 32 with hlen | hlen
  · rw [stepSynched_short hlen]; exact refl s
  · rw [stepSynched_full hlen]
    dsimp only
    exact (consume 32 s).trans (synchedWord _ _)

theorem automatonStep (s : State) : KeepsSetup s (automatonStep s).2 := by
  unfold Machine.automatonStep
  split
  · exact stepSps s
  · exact stepSpe s
  · exact stepSearchSync s
  · exact stepSync s
  · exact stepSynched s

theorem answer {s t : State} (h : KeepsSetup s t) (r : Reply) : KeepsSetup s (answer r t) := { h with }

end State.KeepsSetup

/-- Every operation but RESET and SET_DEBUG completes and keeps the setup. -/
theorem exec_keepsSetup (i : Instr) (s : State) (hreset : ∀ c, i ≠ .reset c) (hdebug : ∀ v, i ≠ .setDebug v) :
    ∃ t, exec i s = .next t ∧ s.KeepsSetup t := by
  have hself := State.KeepsSetup.refl s
  cases i with
  | reset c => exact absurd rfl (hreset c)
  | setDebug v => exact absurd rfl (hdebug v)
  | work buf =>
    have hpresent : s.KeepsSetup { s with input := buf } := { hself with }
    have hrun := runSteps_keeps (fun t ht => ht.trans (State.KeepsSetup.automatonStep t)) (buf.length + 1) 0 hpresent
    exact ⟨_, rfl, { hrun with }⟩
  | stepSps => exact ⟨_, rfl, (State.KeepsSetup.stepSps s).answer _⟩
  | stepSpe => exact ⟨_, rfl, (State.KeepsSetup.stepSpe s).answer _⟩
  | stepSync => exact ⟨_, rfl, (State.KeepsSetup.stepSync s).answer _⟩
  | stepSearchSync => exact ⟨_, rfl, (State.KeepsSetup.stepSearchSync s).answer _⟩
  | stepSynched => exact ⟨_, rfl, (State.KeepsSetup.stepSynched s).answer _⟩
  | uncorrectable w => exact ⟨_, rfl, (State.KeepsSetup.loseSync _ s).answer _⟩
  | syncInBatch => exact ⟨_, rfl, (State.KeepsSetup.syncInBatchWord _ s).answer _⟩
  | idle => exact ⟨_, rfl, (State.KeepsSetup.idleWord s).answer _⟩
  | data c | address c | textFeed p | numericFeed p => exact ⟨_, rfl, (State.KeepsSetup.withMessage _ s).answer _⟩
  | shiftIn b | emit eom => exact ⟨_, rfl, { hself with }⟩
  | status | syndrome w | correct w | popcount w | oddParity w | hamming a b | preambleMatch a =>
    exact ⟨_, rfl, hself.answer _⟩

/-- Settles O45: SET_DEBUG writes `debug` alone, and every other operation but RESET keeps the setup. -/
theorem onlyResetReconfigures : Obligations.OnlyResetReconfigures := by
  intro i s hreset
  by_cases hdebug : ∃ v, i = .setDebug v
  · obtain ⟨v, rfl⟩ := hdebug
    exact ⟨_, rfl, rfl, id, fun h => absurd rfl (h v), rfl, rfl⟩
  · obtain ⟨t, ht, hkeep⟩ := exec_keepsSetup i s hreset (fun v h => hdebug ⟨v, h⟩)
    exact ⟨t, ht, hkeep.cfg_eq, hkeep.sticky, fun _ => hkeep.debug_eq, hkeep.pending_eq, hkeep.placed_eq⟩

/-! ## The registers that no rule reads -/

/-- f does not read `debug` or `cfg.symbol_rate`, and leaves what stands there (R35, R36). -/
def Blind (f : State → State) : Prop :=
  ∀ (v : Bool) (rate : SymbolRate) (s : State), f (withUnread v rate s) = withUnread v rate (f s)

/-- The same of a step, which also answers a count. -/
def BlindStep (f : State → Nat × State) : Prop :=
  ∀ (v : Bool) (rate : SymbolRate) (s : State),
    f (withUnread v rate s) = ((f s).1, withUnread v rate (f s).2)

theorem Blind.comp {f g : State → State} (hf : Blind f) (hg : Blind g) : Blind (fun s => f (g s)) :=
  fun v rate s => (congrArg f (hg v rate s)).trans (hf v rate (g s))

/-! Every condition of the model reads other registers than these two, so it comes out the same. -/

@[simp] theorem withUnread_acc (v : Bool) (rate : SymbolRate) (s : State) : (withUnread v rate s).acc = s.acc := rfl
@[simp] theorem withUnread_wordCount (v : Bool) (rate : SymbolRate) (s : State) :
    (withUnread v rate s).wordCount = s.wordCount := rfl
@[simp] theorem withUnread_msg (v : Bool) (rate : SymbolRate) (s : State) : (withUnread v rate s).msg = s.msg := rfl
@[simp] theorem withUnread_preambleLen (v : Bool) (rate : SymbolRate) (s : State) :
    (withUnread v rate s).cfg.preambleLen = s.cfg.preambleLen := rfl
@[simp] theorem nextWord_withUnread (v : Bool) (rate : SymbolRate) (s : State) :
    nextWord (withUnread v rate s) = nextWord s := rfl

theorem blind_raiseEvent (e : Event) : Blind (raiseEvent e) := fun _ _ _ => rfl

theorem blind_consume (n : Nat) : Blind (consume n) := fun _ _ _ => rfl

theorem blind_withMessage (f : Message → Message) : Blind fun s => { s with msg := f s.msg } := fun _ _ _ => rfl

theorem blind_emitIfEmissible (eom : Bool) : Blind (emitIfEmissible eom) := by
  intro v rate s
  unfold emitIfEmissible
  rw [withUnread_msg]
  split <;> rfl

theorem blind_msgReset : Blind msgReset := fun _ _ _ => rfl

theorem blind_enterInitial : Blind enterInitial := fun _ _ _ => rfl

theorem blind_loseSync (e : Event) : Blind (loseSync e) :=
  blind_enterInitial.comp (blind_msgReset.comp ((blind_emitIfEmissible false).comp (blind_raiseEvent e)))

theorem blind_idleWord : Blind idleWord := by
  intro v rate s
  unfold idleWord
  rw [withUnread_msg]
  split
  · exact (blind_msgReset.comp (blind_emitIfEmissible true)) v rate s
  · exact blind_raiseEvent _ v rate s

theorem blind_dataWord (c : Word) : Blind (dataWord c) :=
  blind_withMessage fun m => feedNumeric (payload c) (feedText (payload c) m)

theorem blind_assemble (c : Word) (i : Nat) : Blind (assemble c i) := by
  intro v rate s
  unfold assemble
  split
  · exact blind_idleWord v rate s
  · split
    · exact blind_dataWord c v rate s
    · rfl

theorem blind_noteCorrection (c w : Word) : Blind (noteCorrection c w) := by
  intro v rate s
  unfold noteCorrection
  split <;> rfl

theorem blind_countWord : Blind countWord := by
  intro v rate s
  rw [countWord_eq, countWord_eq]
  rfl

/-- A valid word, by its class, at the index `word_count` (R114). -/
theorem blind_classified (c : Word) :
    Blind fun s => if c = Config.syncWord then syncInBatchWord s.wordCount s else assemble c s.wordCount s := by
  intro v rate s
  simp only [withUnread_wordCount]
  split
  · rfl
  · exact blind_assemble c s.wordCount v rate s

theorem blind_synchedWord (w : Word) : Blind (synchedWord w) := by
  intro v rate s
  unfold synchedWord
  generalize Codec.correct w = c
  dsimp only
  split
  · exact (blind_countWord.comp ((blind_classified c).comp (blind_noteCorrection c w))) v rate s
  · exact blind_loseSync _ v rate s

theorem blindStep_stepSps : BlindStep stepSps := by
  intro v rate s
  cases hin : s.input with
  | nil => rw [stepSps_nil hin, stepSps_nil (s := withUnread v rate s) hin]
  | cons x rest =>
    rw [stepSps_cons hin, stepSps_cons (s := withUnread v rate s) hin, withUnread_preambleLen, withUnread_acc]
    split <;> rfl

theorem blindStep_stepSpe : BlindStep stepSpe := by
  intro v rate s
  cases hin : s.input with
  | nil => rw [stepSpe_nil hin, stepSpe_nil (s := withUnread v rate s) hin]
  | cons x rest =>
    rw [stepSpe_cons hin, stepSpe_cons (s := withUnread v rate s) hin, withUnread_preambleLen, withUnread_acc]
    split <;> rfl

theorem blindStep_stepSearchSync : BlindStep stepSearchSync := by
  intro v rate s
  cases hin : s.input with
  | nil => rw [stepSearchSync_nil hin, stepSearchSync_nil (s := withUnread v rate s) hin]
  | cons x rest =>
    rw [stepSearchSync_cons hin, stepSearchSync_cons (s := withUnread v rate s) hin, withUnread_acc]
    split <;> rfl

theorem blindStep_stepSync : BlindStep stepSync := by
  intro v rate s
  rcases Nat.lt_or_ge s.input.length 32 with hlen | hlen
  · rw [stepSync_short hlen, stepSync_short (s := withUnread v rate s) hlen]
  · rw [stepSync_full hlen, stepSync_full (s := withUnread v rate s) hlen, nextWord_withUnread,
      blind_consume 32 v rate s, blind_loseSync _ v rate]
    split <;> rfl

theorem blindStep_stepSynched : BlindStep stepSynched := by
  intro v rate s
  rcases Nat.lt_or_ge s.input.length 32 with hlen | hlen
  · rw [stepSynched_short hlen, stepSynched_short (s := withUnread v rate s) hlen]
  · rw [stepSynched_full hlen, stepSynched_full (s := withUnread v rate s) hlen, nextWord_withUnread,
      blind_consume 32 v rate s, blind_synchedWord _ v rate]

theorem blindStep_automatonStep : BlindStep automatonStep := by
  intro v rate s
  obtain ⟨hsps, hspe, hsearch, hsync, hsynched⟩ := automatonStep_of_state s
  obtain ⟨hsps', hspe', hsearch', hsync', hsynched'⟩ := automatonStep_of_state (withUnread v rate s)
  cases hs : s.state with
  | searchPreambleStart => rw [hsps hs, hsps' hs]; exact blindStep_stepSps v rate s
  | searchPreambleEnd => rw [hspe hs, hspe' hs]; exact blindStep_stepSpe v rate s
  | sync => rw [hsync hs, hsync' hs]; exact blindStep_stepSync v rate s
  | searchSync => rw [hsearch hs, hsearch' hs]; exact blindStep_stepSearchSync v rate s
  | synched => rw [hsynched hs, hsynched' hs]; exact blindStep_stepSynched v rate s

theorem blindStep_runSteps (fuel k : Nat) : BlindStep (runSteps fuel k) := by
  intro v rate s
  induction fuel generalizing s k with
  | zero => rfl
  | succ fuel ih =>
    have hblind := blindStep_automatonStep v rate s
    rcases hstep : automatonStep s with ⟨n, t⟩
    rw [hstep] at hblind
    cases n with
    | zero => rw [runSteps_stop (by rw [hblind]), runSteps_stop (by rw [hstep])]
    | succ n => rw [runSteps_go hblind, runSteps_go hstep, ih]

/-- The result of a step handed back. -/
theorem BlindStep.answer {f : State → Nat × State} (hf : BlindStep f) : Blind (fun s => answerStep (f s)) :=
  fun v rate s => congrArg answerStep (hf v rate s)

theorem Blind.answer {f : State → State} (hf : Blind f) (r : Reply) : Blind (fun s => answer r (f s)) :=
  Blind.comp (f := Machine.answer r) (fun _ _ _ => rfl) hf

/-- An operation that completes with a function that does not read the two registers. -/
theorem exists_next_of_blind {i : Instr} {f : State → State} (hi : ∀ s, exec i s = .next (f s)) (hf : Blind f)
    (s : State) (v : Bool) (rate : SymbolRate) :
    ∃ t, exec i s = .next t ∧ exec i (withUnread v rate s) = .next (withUnread v rate t) :=
  ⟨f s, hi s, (hi _).trans (congrArg _ (hf v rate s))⟩

/-- WORK runs its steps from the presented symbols, whatever stands in the two registers (R101). -/
theorem execWork_withUnread (buf : List Symbol) (v : Bool) (rate : SymbolRate) (s : State) :
    ∃ t, execWork buf s = .next t ∧ execWork buf (withUnread v rate s) = .next (withUnread v rate t) := by
  have hrun := blindStep_runSteps (buf.length + 1) 0 v rate { s with input := buf }
  have hpresent : ({ withUnread v rate s with input := buf } : State) = withUnread v rate { s with input := buf } :=
    rfl
  refine ⟨_, rfl, ?_⟩
  unfold execWork
  rw [hpresent, hrun]
  rfl

/-- Settles O46: each operation completes with a function of the state that reads neither register. -/
theorem debugAndRateHaveNoEffect : Obligations.DebugAndRateHaveNoEffect := by
  intro i s v rate hreset hdebug hstatus
  cases i with
  | reset c => exact absurd rfl (hreset c)
  | setDebug b => exact absurd rfl (hdebug b)
  | status => exact absurd rfl hstatus
  | work buf => exact execWork_withUnread buf v rate s
  | stepSps => exact exists_next_of_blind (fun _ => rfl) blindStep_stepSps.answer s v rate
  | stepSpe => exact exists_next_of_blind (fun _ => rfl) blindStep_stepSpe.answer s v rate
  | stepSync => exact exists_next_of_blind (fun _ => rfl) blindStep_stepSync.answer s v rate
  | stepSearchSync => exact exists_next_of_blind (fun _ => rfl) blindStep_stepSearchSync.answer s v rate
  | stepSynched => exact exists_next_of_blind (fun _ => rfl) blindStep_stepSynched.answer s v rate
  | uncorrectable w => exact exists_next_of_blind (fun _ => rfl) ((blind_loseSync _).answer _) s v rate
  | idle => exact exists_next_of_blind (fun _ => rfl) (blind_idleWord.answer _) s v rate
  | data c => exact exists_next_of_blind (fun _ => rfl) ((blind_dataWord c).answer _) s v rate
  | textFeed p => exact exists_next_of_blind (fun _ => rfl) ((blind_withMessage (feedText p)).answer _) s v rate
  | numericFeed p => exact exists_next_of_blind (fun _ => rfl) ((blind_withMessage (feedNumeric p)).answer _) s v rate
  | syncInBatch | address c | syndrome w | correct w | popcount w | oddParity w | hamming a b | shiftIn b
  | preambleMatch a | emit eom => exact ⟨_, rfl, rfl⟩

end Sys2Proof.Machine
end

section
/-! Bit order (family 20_memory): the accumulator after a run of symbols, and the word that ReadWord makes of 32. -/

namespace Sys2Proof.Machine

/-- ReadWord shifts as the accumulator does, from 0 (R48). -/
theorem wordOfSymbols_eq_accAfter_zero (syms : List Symbol) : wordOfSymbols syms = accAfter 0 syms := by
  simp only [wordOfSymbols, accAfter, shiftBit_storedBit]

/-- The newest symbol is shifted in last. -/
theorem accAfter_concat (acc : Word) (syms : List Symbol) (x : Symbol) :
    accAfter acc (syms ++ [x]) = shiftBit (accAfter acc syms) (storedBit x) := by
  rw [shiftBit_storedBit]
  exact List.foldl_concat ..

/-- Bit 0 of a shifted word is the new bit, and every other bit comes from the one below it (R106). -/
theorem getLsbD_shiftBit (w : Word) (b : Bool) {i : Nat} (hi : i < 32) :
    (shiftBit w b).getLsbD i = if i = 0 then b else w.getLsbD (i - 1) := by
  cases i with
  | zero => cases b <;> simp [shiftBit]
  | succ i => cases b <;> simp [shiftBit, hi, BitVec.getLsbD_eq_getElem (Nat.lt_of_succ_lt hi)]

/-- Bit i of the accumulator is the inverse of the symbol that came i symbols before the newest (R23, R47). -/
theorem getLsbD_accAfter_reverse (acc : Word) (newestFirst : List Symbol) {i : Nat} (hi : i < 32)
    (hlen : i < newestFirst.length) :
    (accAfter acc newestFirst.reverse).getLsbD i = !newestFirst.getD i false := by
  induction newestFirst generalizing i with
  | nil => exact absurd hlen (Nat.not_lt_zero i)
  | cons x older ih =>
    rw [List.reverse_cons, accAfter_concat, getLsbD_shiftBit _ _ hi]
    cases i with
    | zero => rfl
    | succ i => exact ih (Nat.lt_of_succ_lt hi) (Nat.lt_of_succ_lt_succ hlen)

/-- After 32 symbols the first stands in bit 31 and the last in bit 0, each inverted (R48). -/
theorem getLsbD_accAfter_of_length (acc : Word) {syms : List Symbol} (hlen : syms.length = 32) {j : Nat} (hj : j < 32) :
    (accAfter acc syms).getLsbD (31 - j) = !syms.getD j false := by
  have hbit := getLsbD_accAfter_reverse acc syms.reverse (i := 31 - j) (by omega) (by rw [List.length_reverse]; omega)
  rw [List.reverse_reverse, List.getD_reverse _ (by omega), hlen] at hbit
  rwa [show 32 - 1 - (31 - j) = j by omega] at hbit

/-- 32 symbols push the accumulator's old value out. -/
theorem accAfter_of_length (acc : Word) {syms : List Symbol} (hlen : syms.length = 32) :
    accAfter acc syms = accAfter 0 syms := by
  apply BitVec.eq_of_getLsbD_eq
  intro i hi
  rw [show i = 31 - (31 - i) by omega, getLsbD_accAfter_of_length acc hlen (by omega),
    getLsbD_accAfter_of_length 0 hlen (by omega)]

/-- Settles O32: the word is the accumulator after the symbols, and each bit of it gives its symbol back. -/
theorem wordReadIsTheAccumulatorsOrder : Obligations.WordReadIsTheAccumulatorsOrder := by
  intro syms acc hlen
  rw [wordOfSymbols_eq_accAfter_zero]
  refine ⟨fun j hj => getLsbD_accAfter_of_length 0 hlen hj, accAfter_of_length acc hlen, ?_⟩
  apply List.ext_getElem (by rw [hlen]; rfl)
  intro j _ hj
  have hbit := getLsbD_accAfter_of_length 0 hlen (hlen ▸ hj)
  rw [List.getD_eq_getElem _ _ hj] at hbit
  simp only [symbolsOfWord, List.getElem_map, List.getElem_range, hbit, Bool.not_not]

end Sys2Proof.Machine
end

section
/-! The host interface (family 20_memory): which symbols a WORK request may present. -/

namespace Sys2Proof

theorem decodeSymbols_of_bits {buf : List Nat} (h : ∀ v ∈ buf, v ≤ 1) :
    decodeSymbols buf = .ok (buf.map fun v => v == 1) := by
  induction buf with
  | nil => rfl
  | cons v buf ih =>
    obtain ⟨hv, hbuf⟩ := List.forall_mem_cons.mp h
    obtain rfl | rfl : v = 0 ∨ v = 1 := by omega
    all_goals rw [decodeSymbols, ih hbuf]; rfl

/-- The first symbol other than 0 and 1 names the refusal (R46). -/
theorem decodeSymbols_of_nonBit {buf : List Nat} (h : ∃ v ∈ buf, 1 < v) :
    ∃ v ∈ buf, 1 < v ∧ decodeSymbols buf = .error (.symbolNotBit v) := by
  induction buf with
  | nil => simp at h
  | cons v buf ih =>
    by_cases hv : 1 < v
    · refine ⟨v, List.mem_cons_self, hv, ?_⟩
      obtain ⟨k, rfl⟩ := Nat.exists_eq_add_of_le' hv
      rfl
    · have hlater : ∃ u ∈ buf, 1 < u := by simpa [hv] using h
      obtain ⟨u, hu, hbig, herr⟩ := ih hlater
      refine ⟨u, List.mem_cons_of_mem v hu, hbig, ?_⟩
      obtain rfl | rfl : v = 0 ∨ v = 1 := by omega
      all_goals rw [decodeSymbols, herr]; rfl

namespace Machine

/-- A pending WORK runs when its symbols are bits, and is refused when one is not. -/
theorem step_of_pending_work {s : State} {buf : List Nat} {rest : List HostAction} (hplaced : s.placed = none)
    (hpending : s.pending = .operation 1 (.symbols buf) :: rest) :
    step s = runDecoded ((decodeSymbols buf).map .work) { s with pending := rest } := by
  rw [step_of_host hplaced, runHost, hpending]
  rfl

/-- Settles O37: the decoder of the symbols decides, and it names the first that is no bit. -/
theorem nonBitSymbolsAreRefused : Obligations.NonBitSymbolsAreRefused := by
  intro buf s rest hplaced hpending
  rw [step_of_pending_work hplaced hpending]
  constructor
  · intro hbad
    obtain ⟨v, hv, hbig, herr⟩ := decodeSymbols_of_nonBit hbad
    exact ⟨v, hv, hbig, by rw [herr]; rfl⟩
  · intro hbits
    rw [decodeSymbols_of_bits hbits]
    rfl

end Machine

end Sys2Proof
end

section
/-! The total order of observations (family 20_memory): every operation but RESET appends to the trace, and the queues,
the counter and the presented symbols follow what it appends (R55, R56). -/

namespace Sys2Proof.Machine

/-! ## What a joined order says -/

@[simp] theorem eventsOf_append (d e : List Observation) : eventsOf (d ++ e) = eventsOf d ++ eventsOf e := by
  induction d with
  | nil => rfl
  | cons o d ih => cases o <;> simp [eventsOf, ih]

@[simp] theorem recordsOf_append (d e : List Observation) : recordsOf (d ++ e) = recordsOf d ++ recordsOf e := by
  induction d with
  | nil => rfl
  | cons o d ih => cases o <;> simp [recordsOf, ih]

@[simp] theorem symbolsOf_append (d e : List Observation) : symbolsOf (d ++ e) = symbolsOf d ++ symbolsOf e := by
  induction d with
  | nil => rfl
  | cons o d ih => cases o <;> simp [symbolsOf, ih]

/-- From s to t the observations d are appended to the trace; the queues and the counter grow by what d says, and its
symbols are taken from the front of the input. -/
structure State.Appends (s : State) (d : List Observation) (t : State) : Prop where
  trace_eq : t.trace = s.trace ++ d
  ev_eq : t.ev = s.ev ++ eventsOf d
  out_eq : t.out = s.out ++ recordsOf d
  consumed_eq : t.consumed = s.consumed + (symbolsOf d).length
  input_eq : s.input = symbolsOf d ++ t.input

theorem State.Appends.trans {s t u : State} {d e : List Observation} (h : s.Appends d t) (h' : t.Appends e u) :
    s.Appends (d ++ e) u where
  trace_eq := by rw [h'.trace_eq, h.trace_eq, List.append_assoc]
  ev_eq := by rw [h'.ev_eq, h.ev_eq, eventsOf_append, List.append_assoc]
  out_eq := by rw [h'.out_eq, h.out_eq, recordsOf_append, List.append_assoc]
  consumed_eq := by rw [h'.consumed_eq, h.consumed_eq, symbolsOf_append, List.length_append, Nat.add_assoc]
  input_eq := by rw [h.input_eq, h'.input_eq, symbolsOf_append, List.append_assoc]

/-- The appended symbols are the front of the input (R52). -/
theorem State.Appends.symbols_eq_take {s t : State} {d : List Observation} (h : s.Appends d t) :
    symbolsOf d = s.input.take (symbolsOf d).length := by
  rw [h.input_eq, List.take_left]

/-- From s to t, n presented symbols are consumed and everything observed is appended in order. -/
def State.Takes (s : State) (n : Nat) (t : State) : Prop := ∃ d, s.Appends d t ∧ (symbolsOf d).length = n

namespace State.Takes

variable {s t u : State} {m n : Nat}

theorem refl (s : State) : s.Takes 0 s :=
  ⟨[], ⟨(List.append_nil _).symm, (List.append_nil _).symm, (List.append_nil _).symm, rfl, rfl⟩, rfl⟩

theorem trans (h : s.Takes m t) (h' : t.Takes n u) : s.Takes (m + n) u := by
  obtain ⟨d, hd, rfl⟩ := h
  obtain ⟨e, he, rfl⟩ := h'
  exact ⟨d ++ e, hd.trans he, by rw [symbolsOf_append, List.length_append]⟩

/-- A step that consumes something reads only symbols that are there (R105, R111). -/
theorem consume (h : n ≤ s.input.length) : s.Takes n (consume n s) := by
  have hsyms : symbolsOf [.symbols (s.input.take n)] = s.input.take n := List.append_nil _
  have hlen : (s.input.take n).length = n := List.length_take_of_le h
  refine ⟨[.symbols (s.input.take n)], ⟨rfl, ?_, ?_, ?_, ?_⟩, ?_⟩
  · exact (List.append_nil _).symm
  · exact (List.append_nil _).symm
  · rw [hsyms, hlen, consume_consumed]
  · rw [hsyms, consume_input, List.take_append_drop]
  · rw [hsyms, hlen]

/-- An update that leaves the trace, the queues, the counter and the input alone is no observation. -/
theorem unobserved (h : s.Takes n t) (htrace : u.trace = t.trace) (hev : u.ev = t.ev) (hout : u.out = t.out)
    (hconsumed : u.consumed = t.consumed) (hinput : u.input = t.input) : s.Takes n u := by
  obtain ⟨d, hd, hn⟩ := h
  exact ⟨d,
    { trace_eq := htrace.trans hd.trace_eq
      ev_eq := hev.trans hd.ev_eq
      out_eq := hout.trans hd.out_eq
      consumed_eq := hconsumed.trans hd.consumed_eq
      input_eq := by rw [hd.input_eq, hinput] },
    hn⟩

theorem withState (h : s.Takes n t) (c : ControlState) : s.Takes n { t with state := c } :=
  h.unobserved rfl rfl rfl rfl rfl

theorem withMessage (h : s.Takes n t) (m : Message) : s.Takes n { t with msg := m } :=
  h.unobserved rfl rfl rfl rfl rfl

theorem shiftIn (h : s.Takes n t) (b : Bool) : s.Takes n (shiftIn b t) :=
  h.unobserved rfl rfl rfl rfl rfl

theorem setSyncInBatchSeen (h : s.Takes n t) : s.Takes n (setSyncInBatchSeen t) :=
  h.unobserved rfl rfl rfl rfl rfl

theorem enterInitial (h : s.Takes n t) : s.Takes n (enterInitial t) :=
  h.unobserved rfl rfl rfl rfl rfl

theorem enterSynched (h : s.Takes n t) : s.Takes n (enterSynched t) :=
  h.unobserved rfl rfl rfl rfl rfl

theorem countWord (h : s.Takes n t) : s.Takes n (countWord t) := by
  rw [countWord_eq]
  exact h.unobserved rfl rfl rfl rfl rfl

theorem answer (h : s.Takes n t) (r : Reply) : s.Takes n (answer r t) :=
  h.unobserved rfl rfl rfl rfl rfl

/-! ## Events, records and the word classes -/

theorem raiseEvent (h : s.Takes n t) (e : Event) : s.Takes n (raiseEvent e t) := by
  have hevent : t.Takes 0 (Machine.raiseEvent e t) :=
    ⟨[.event e], ⟨rfl, rfl, (List.append_nil _).symm, rfl, rfl⟩, rfl⟩
  exact h.trans hevent

theorem emitMessage (h : s.Takes n t) (eom : Bool) : s.Takes n (emitMessage eom t) := by
  have hrecord : t.Takes 0 (Machine.emitMessage eom t) :=
    ⟨[.record (recordOf t eom)], ⟨rfl, (List.append_nil _).symm, rfl, rfl, rfl⟩, rfl⟩
  exact h.trans hrecord

theorem emitIfEmissible (h : s.Takes n t) (eom : Bool) : s.Takes n (emitIfEmissible eom t) := by
  rcases emitIfEmissible_cases eom t with ⟨_, heq⟩ | ⟨_, heq⟩ <;> rw [heq]
  · exact h.emitMessage eom
  · exact h

theorem loseSync (h : s.Takes n t) (e : Event) : s.Takes n (loseSync e t) :=
  (((h.raiseEvent e).emitIfEmissible false).withMessage _).enterInitial

theorem idleWord (h : s.Takes n t) : s.Takes n (idleWord t) := by
  unfold Machine.idleWord
  split
  · exact (h.emitIfEmissible true).withMessage _
  · exact h.raiseEvent _

theorem assemble (h : s.Takes n t) (c : Word) (i : Nat) : s.Takes n (assemble c i t) := by
  unfold Machine.assemble
  split
  · exact h.idleWord
  · split <;> exact h.withMessage _

theorem syncInBatchWord (h : s.Takes n t) (i : Nat) : s.Takes n (syncInBatchWord i t) :=
  h.setSyncInBatchSeen.raiseEvent _

theorem noteCorrection (h : s.Takes n t) (c w : Word) : s.Takes n (noteCorrection c w t) := by
  rcases noteCorrection_cases c w t with ⟨_, heq⟩ | ⟨_, heq⟩ <;> rw [heq]
  · exact h
  · exact h.raiseEvent _

theorem synchedWord (h : s.Takes n t) (w : Word) : s.Takes n (synchedWord w t) := by
  rcases synchedWord_cases w t with ⟨_, heq⟩ | ⟨_, _, heq⟩ | ⟨_, _, heq⟩ <;> rw [heq]
  · exact h.loseSync _
  · exact ((h.noteCorrection _ w).syncInBatchWord _).countWord
  · exact ((h.noteCorrection _ w).assemble _ _).countWord

/-! ## The steps consume as many symbols as they answer -/

theorem shiftSymbol {x : Symbol} {rest : List Symbol} (h : s.input = x :: rest) : s.Takes 1 (shiftSymbol x s) :=
  (consume (by rw [h]; exact Nat.le_add_left 1 rest.length)).shiftIn _

theorem stepSps (s : State) : s.Takes (stepSps s).1 (stepSps s).2 := by
  cases hin : s.input with
  | nil => rw [stepSps_nil hin]; exact refl s
  | cons x rest =>
    rw [stepSps_cons hin]
    dsimp only
    split
    · exact (shiftSymbol hin).withState _
    · exact shiftSymbol hin

theorem stepSpe (s : State) : s.Takes (stepSpe s).1 (stepSpe s).2 := by
  cases hin : s.input with
  | nil => rw [stepSpe_nil hin]; exact refl s
  | cons x rest =>
    rw [stepSpe_cons hin]
    dsimp only
    split
    · exact shiftSymbol hin
    · exact (shiftSymbol hin).withState _

theorem stepSearchSync (s : State) : s.Takes (stepSearchSync s).1 (stepSearchSync s).2 := by
  cases hin : s.input with
  | nil => rw [stepSearchSync_nil hin]; exact refl s
  | cons x rest =>
    rw [stepSearchSync_cons hin]
    dsimp only
    split
    · exact (shiftSymbol hin).enterSynched
    · exact shiftSymbol hin

theorem stepSync (s : State) : s.Takes (stepSync s).1 (stepSync s).2 := by
  rcases Nat.lt_or_ge s.input.length 32 with hlen | hlen
  · rw [stepSync_short hlen]; exact refl s
  · rw [stepSync_full hlen]
    dsimp only
    split
    · exact (consume hlen).enterSynched
    · exact (consume hlen).loseSync _

theorem stepSynched (s : State) : s.Takes (stepSynched s).1 (stepSynched s).2 := by
  rcases Nat.lt_or_ge s.input.length 32 with hlen | hlen
  · rw [stepSynched_short hlen]; exact refl s
  · rw [stepSynched_full hlen]
    dsimp only
    exact (consume hlen).synchedWord _

theorem automatonStep (s : State) : s.Takes (automatonStep s).1 (automatonStep s).2 := by
  unfold Machine.automatonStep
  split
  · exact stepSps s
  · exact stepSpe s
  · exact stepSearchSync s
  · exact stepSync s
  · exact stepSynched s

/-- WORK's loop adds to the count it starts from as many symbols as it consumes (R101). -/
theorem runSteps (h : s.Takes n t) (fuel : Nat) : s.Takes (runSteps fuel n t).1 (runSteps fuel n t).2 := by
  induction fuel generalizing n t with
  | zero => exact h
  | succ fuel ih =>
    have hnext := automatonStep t
    rcases hstep : Machine.automatonStep t with ⟨k, u⟩
    rw [hstep] at hnext
    cases k with
    | zero => rw [runSteps_stop (by rw [hstep])]; exact h
    | succ k => rw [runSteps_go hstep]; exact ih (h.trans hnext)

end State.Takes

/-- Every operation but RESET and WORK completes and appends what it observes, on the input that stands there. -/
theorem exec_takes (i : Instr) (s : State) (hreset : ∀ c, i ≠ .reset c) (hwork : ∀ buf, i ≠ .work buf) :
    ∃ t n, exec i s = .next t ∧ s.Takes n t := by
  have hself := State.Takes.refl s
  cases i with
  | reset c => exact absurd rfl (hreset c)
  | work buf => exact absurd rfl (hwork buf)
  | stepSps => exact ⟨_, _, rfl, (State.Takes.stepSps s).answer _⟩
  | stepSpe => exact ⟨_, _, rfl, (State.Takes.stepSpe s).answer _⟩
  | stepSync => exact ⟨_, _, rfl, (State.Takes.stepSync s).answer _⟩
  | stepSearchSync => exact ⟨_, _, rfl, (State.Takes.stepSearchSync s).answer _⟩
  | stepSynched => exact ⟨_, _, rfl, (State.Takes.stepSynched s).answer _⟩
  | uncorrectable w => exact ⟨_, _, rfl, (hself.loseSync _).answer _⟩
  | syncInBatch => exact ⟨_, _, rfl, (hself.syncInBatchWord _).answer _⟩
  | idle => exact ⟨_, _, rfl, hself.idleWord.answer _⟩
  | data c | address c | textFeed p | numericFeed p => exact ⟨_, _, rfl, (hself.withMessage _).answer _⟩
  | shiftIn b => exact ⟨_, _, rfl, (hself.shiftIn b).answer _⟩
  | emit eom => exact ⟨_, _, rfl, (hself.emitMessage eom).answer _⟩
  | setDebug v => exact ⟨_, _, rfl, hself.unobserved rfl rfl rfl rfl rfl⟩
  | status | syndrome w | correct w | popcount w | oddParity w | hamming a b | preambleMatch a =>
    exact ⟨_, _, rfl, hself.answer _⟩

/-- Settles O47: WORK is its loop on the presented buffer, and every other operation acts on the state as it is. -/
theorem traceIsTheTotalOrder : Obligations.TraceIsTheTotalOrder := by
  intro i s hreset
  by_cases hwork : ∃ buf, i = .work buf
  · obtain ⟨buf, rfl⟩ := hwork
    obtain ⟨d, hd, hcount⟩ := (State.Takes.refl { s with input := buf }).runSteps (buf.length + 1)
    refine ⟨_, d, rfl, hd.trace_eq, hd.ev_eq, hd.out_eq, hd.consumed_eq, fun buf' h => ?_⟩
    cases h
    exact ⟨_, rfl, hcount ▸ hd.symbols_eq_take⟩
  · obtain ⟨t, n, ht, d, hd, _⟩ := exec_takes i s hreset fun buf h => hwork ⟨buf, h⟩
    exact ⟨t, d, ht, hd.trace_eq, hd.ev_eq, hd.out_eq, hd.consumed_eq, fun buf h => absurd ⟨buf, h⟩ hwork⟩

end Sys2Proof.Machine
end

section
/-! Decoding and encoding (family 30_encoding): what the decoder makes of the bits that the encoder writes, that what it
accepts is well formed, and the order of the word classes. -/

namespace Sys2Proof

namespace Codec

/-! ## Valid words (R95) -/

theorem valid_iff (w : Word) : valid w = true ↔ syndrome w = 0 := beq_iff_eq

theorem correct_of_valid {w : Word} (h : valid w = true) : correct w = w := if_pos h

theorem uncorrectable_of_valid {w : Word} (h : valid w = true) : uncorrectable w = false := by
  rw [uncorrectable_eq_not_valid, correct_of_valid h, h]; rfl

/-- CORRECT answers a valid word, or gives the word back (R91). -/
theorem correct_valid_or_eq (w : Word) : valid (correct w) = true ∨ correct w = w := by
  unfold correct
  split
  · exact .inr rfl
  · split
    next c hfound => exact .inl (List.find?_some hfound)
    next => exact .inr rfl

theorem valid_syncWord : valid Config.syncWord = true := by decide +kernel

theorem valid_idleWord : valid Config.idleWord = true := by decide +kernel

end Codec

/-! ## Fields -/

@[simp] theorem narrow_toNat {n : Nat} (v : BitVec n) : narrow n v.toNat = .ok v := by
  rw [narrow, if_pos v.isLt, BitVec.ofNat_toNat, BitVec.setWidth_eq]

@[simp] theorem narrow_one_toNat (b : Bool) : narrow 1 b.toNat = .ok (BitVec.ofBool b) := by cases b <;> rfl

@[simp] theorem bitOf_ofBool (b : Bool) : bitOf (BitVec.ofBool b) = b := by cases b <;> rfl

@[simp] theorem stateOfCode_stateCode (c : ControlState) : stateOfCode (stateCode c) = .ok c := by cases c <;> rfl

@[simp] theorem decodeSymbols_toNat (buf : List Symbol) : decodeSymbols (buf.map Bool.toNat) = .ok buf := by
  have hbits : ∀ v ∈ buf.map Bool.toNat, v ≤ 1 := List.forall_mem_map.mpr fun b _ => Bool.toNat_le b
  rw [decodeSymbols_of_bits hbits, List.map_map, List.map_congr_left (g := id) fun b _ => by cases b <;> rfl,
    List.map_id]

@[simp] theorem decodeHamming_append (a b : Word) : decodeHamming (a ++ b) = .hamming a b := by
  rw [decodeHamming, BitVec.extractLsb'_append_eq_left, BitVec.extractLsb'_append_eq_right]

/-- A state code selects the step of its control state (R73, R102). -/
theorem decode_stateCode (c : ControlState) :
    decode ⟨.stateStep, (stateCode c).toNat, .absent⟩ = .ok (stepOf c) := by
  simp [decode, decodePlain, decodeStateStep, Except.bind, Except.map]

/-- Codes above 4 are no step (R73, I11). -/
theorem decode_stateStep_error {n : Nat} (h : 5 ≤ n) :
    ∃ e, decode ⟨.stateStep, n, .absent⟩ = .error e := by
  by_cases hwide : n < 2 ^ 3
  · obtain rfl | rfl | rfl : n = 5 ∨ n = 6 ∨ n = 7 := by omega
    all_goals exact ⟨_, rfl⟩
  · exact ⟨.bitsTooWide n, by rw [decode, decodePlain, decodeStateStep, narrow, if_neg hwide]; rfl⟩

/-! ## Word classes (R72) -/

theorem decode_wordClass (c : Word) : decode ⟨.wordClass, c.toNat, .absent⟩ = .ok (classifyCorrected c) := by
  simp [decode, decodePlain, Except.map]

theorem classifyCorrected_of_uncorrectable {c : Word} (h : Codec.uncorrectable c = true) :
    classifyCorrected c = .uncorrectable c := if_pos h

theorem classifyCorrected_of_correctable {c : Word} (h : Codec.uncorrectable c = false) :
    classifyCorrected c =
      if c = Config.syncWord then .syncInBatch
      else if c = Config.idleWord then .idle
      else if c.getLsbD 31 then .data c
      else .address c := if_neg (by simp [h])

theorem classifyCorrected_syncWord : classifyCorrected Config.syncWord = .syncInBatch := by
  rw [classifyCorrected_of_correctable (Codec.uncorrectable_of_valid Codec.valid_syncWord), if_pos rfl]

theorem classifyCorrected_idleWord : classifyCorrected Config.idleWord = .idle := by
  rw [classifyCorrected_of_correctable (Codec.uncorrectable_of_valid Codec.valid_idleWord), if_neg (by decide),
    if_pos rfl]

/-- Neither fixed word has the flag bit, so a data word is none of them (R65, R66). -/
theorem classifyCorrected_data {c : Word} (hc : Codec.uncorrectable c = false) (hflag : c.getLsbD 31 = true) :
    classifyCorrected c = .data c := by
  have hsync : c ≠ Config.syncWord := by rintro rfl; exact absurd hflag (by decide)
  have hidle : c ≠ Config.idleWord := by rintro rfl; exact absurd hflag (by decide)
  rw [classifyCorrected_of_correctable hc, if_neg hsync, if_neg hidle, if_pos hflag]

theorem classifyCorrected_address {c : Word} (hc : Codec.uncorrectable c = false) (hflag : c.getLsbD 31 = false)
    (hsync : c ≠ Config.syncWord) (hidle : c ≠ Config.idleWord) : classifyCorrected c = .address c := by
  rw [classifyCorrected_of_correctable hc, if_neg hsync, if_neg hidle, hflag, if_neg Bool.false_ne_true]

theorem wellFormed_data_iff (c : Word) :
    wellFormed (.data c) = true ↔ Codec.uncorrectable c = false ∧ c.getLsbD 31 = true := by
  simp only [wellFormed, Bool.and_eq_true, Bool.not_eq_true']

theorem wellFormed_address_iff (c : Word) :
    wellFormed (.address c) = true ↔
      Codec.uncorrectable c = false ∧ c.getLsbD 31 = false ∧ c ≠ Config.syncWord ∧ c ≠ Config.idleWord := by
  simp only [wellFormed, Bool.and_eq_true, Bool.not_eq_true', bne_iff_ne, and_assoc]

/-- The classes carry words of their class. -/
theorem wellFormed_classifyCorrected (c : Word) : wellFormed (classifyCorrected c) = true := by
  cases hc : Codec.uncorrectable c with
  | true => rw [classifyCorrected_of_uncorrectable hc]; exact hc
  | false =>
    rw [classifyCorrected_of_correctable hc]
    split
    · rfl
    next hsync =>
      split
      · rfl
      next hidle =>
        split
        next hflag => exact (wellFormed_data_iff c).mpr ⟨hc, hflag⟩
        next hflag => exact (wellFormed_address_iff c).mpr ⟨hc, Bool.eq_false_iff.mpr hflag, hsync, hidle⟩

/-! ## Decoding an encoded operation -/

/-- Settles O34: each place reads back the field that the encoder wrote, and a word class is found again because the
operation is well formed. -/
theorem decodeInvertsEncode : Obligations.DecodeInvertsEncode := by
  intro i hwf
  cases i with
  | reset c => simp [encode, encodeConfig, decode, decodeHostOp, decodeReset, decodeConfig, Except.map]
  | work buf => simp [encode, decode, decodeHostOp, decodeWork, Except.map]
  | setDebug v => cases v <;> rfl
  | status => rfl
  | stepSps => exact decode_stateCode .searchPreambleStart
  | stepSpe => exact decode_stateCode .searchPreambleEnd
  | stepSync => exact decode_stateCode .sync
  | stepSearchSync => exact decode_stateCode .searchSync
  | stepSynched => exact decode_stateCode .synched
  | uncorrectable w => exact (decode_wordClass w).trans (congrArg _ (classifyCorrected_of_uncorrectable hwf))
  | syncInBatch => exact (decode_wordClass _).trans (congrArg _ classifyCorrected_syncWord)
  | idle => exact (decode_wordClass _).trans (congrArg _ classifyCorrected_idleWord)
  | data c =>
    obtain ⟨hc, hflag⟩ := (wellFormed_data_iff c).mp hwf
    exact (decode_wordClass c).trans (congrArg _ (classifyCorrected_data hc hflag))
  | address c =>
    obtain ⟨hc, hflag, hsync, hidle⟩ := (wellFormed_address_iff c).mp hwf
    exact (decode_wordClass c).trans (congrArg _ (classifyCorrected_address hc hflag hsync hidle))
  | syndrome w | correct w | popcount w | oddParity w | hamming a b | shiftIn b | preambleMatch a | textFeed p
  | numericFeed p | emit eom => simp [encode, decode, decodePlain, Except.map]

/-! ## What the decoder accepts -/

theorem decodePlain_eq_ok {op : Operand} {r : Except DecodeError Instr} {i : Instr} (h : decodePlain op r = .ok i) :
    r = .ok i := by
  cases op with
  | absent => exact h
  | config c => cases h
  | symbols buf => cases h
  | bit v => cases h

theorem exists_of_map_eq_ok {α β : Type} {f : α → β} {x : Except DecodeError α} {b : β} (h : x.map f = .ok b) :
    ∃ a, x = .ok a ∧ f a = b := by
  cases x with
  | error e => cases h
  | ok a => cases h; exact ⟨a, rfl, rfl⟩

/-- An operation of an internal place or a word class is made from its field alone. -/
theorem wellFormed_of_decodePlain_narrow {n bits : Nat} {op : Operand} {f : BitVec n → Instr} {i : Instr}
    (hf : ∀ v, wellFormed (f v) = true) (h : decodePlain op ((narrow n bits).map f) = .ok i) :
    wellFormed i = true := by
  obtain ⟨v, _, rfl⟩ := exists_of_map_eq_ok (decodePlain_eq_ok h)
  exact hf v

theorem wellFormed_of_isHostOperation {i : Instr} (h : Machine.isHostOperation i) : wellFormed i = true := by
  obtain ⟨c, rfl⟩ | ⟨buf, rfl⟩ | ⟨v, rfl⟩ | rfl := h <;> rfl

theorem wellFormed_stepOf (c : ControlState) : wellFormed (stepOf c) = true := by cases c <;> rfl

theorem wellFormed_of_decodeStateStep {bits : Nat} {i : Instr} (h : decodeStateStep bits = .ok i) :
    wellFormed i = true := by
  unfold decodeStateStep at h
  cases hcode : narrow 3 bits with
  | error e => rw [hcode] at h; cases h
  | ok code =>
    rw [hcode] at h
    obtain ⟨c, _, rfl⟩ := exists_of_map_eq_ok h
    exact wellFormed_stepOf c

/-- Settles O35: only a word class can be ill formed, and the classification gives each word its own class. -/
theorem decodedIsWellFormed : Obligations.DecodedIsWellFormed := by
  rintro ⟨space, bits, operand⟩ i h
  cases space with
  | hostOp => exact wellFormed_of_isHostOperation (Machine.decodeHostOp_isHostOperation h)
  | stateStep => exact wellFormed_of_decodeStateStep (decodePlain_eq_ok h)
  | wordClass => exact wellFormed_of_decodePlain_narrow wellFormed_classifyCorrected h
  | syndrome | correct | popcount | oddParity | hamming | shiftIn | preambleMatch | textFeed | numericFeed | emit =>
    exact wellFormed_of_decodePlain_narrow (fun _ => rfl) h

/-! ## The word classes and the written-out codes -/

/-- Settles O33: a word that CORRECT leaves without a valid word is the word read, and any other is classified by the
table's order. -/
theorem wordClassesInOrder : Obligations.WordClassesInOrder := by
  intro w c hc
  have hcorrected := Codec.correct_valid_or_eq w
  have hlost := Codec.uncorrectable_eq_not_valid w
  rw [← hc] at hcorrected hlost
  rw [decode_wordClass]
  by_cases hsyndrome : Codec.syndrome c = 0
  · have hvalid : Codec.valid c = true := (Codec.valid_iff c).mpr hsyndrome
    rw [if_neg (not_not.mpr hsyndrome), classifyCorrected_of_correctable (Codec.uncorrectable_of_valid hvalid)]
    rfl
  · have hvalid : Codec.valid c = false := Bool.eq_false_iff.mpr (mt (Codec.valid_iff c).mp hsyndrome)
    obtain rfl : c = w := hcorrected.resolve_left (Bool.eq_false_iff.mp hvalid)
    rw [if_pos hsyndrome, classifyCorrected_of_uncorrectable (by rw [hlost, hvalid]; rfl)]

/-- Settles O36: each code by its row, and the three words by their classes. -/
theorem codesSelectStepsAndHostOperations : Obligations.CodesSelectStepsAndHostOperations := by
  have hdata : Codec.valid 0x899200DB = true := by decide +kernel
  have haddress : Codec.valid 0x0013439A = true := by decide +kernel
  exact
    ⟨rfl, rfl, rfl, rfl, rfl, fun _ h => decode_stateStep_error h, rfl, rfl, rfl, rfl,
      (decode_wordClass 0x7CD215D8).trans (congrArg _ classifyCorrected_syncWord),
      (decode_wordClass 0x899200DB).trans
        (congrArg _ (classifyCorrected_data (Codec.uncorrectable_of_valid hdata) (by decide))),
      (decode_wordClass 0x0013439A).trans
        (congrArg _ (classifyCorrected_address (Codec.uncorrectable_of_valid haddress) (by decide) (by decide)
          (by decide)))⟩

end Sys2Proof
end

section
/-! How much a step reads (family 30_encoding): one symbol in the search states and a word in the others, or nothing. -/

namespace Sys2Proof.Machine

/-- With fewer symbols than its control state reads, a step changes nothing (R51, R111). -/
theorem automatonStep_short {s : State} (h : s.input.length < stepLength s.state) : automatonStep s = (0, s) := by
  cases hs : s.state <;> rw [hs] at h
  case searchPreambleStart | searchPreambleEnd | searchSync =>
    have hin : s.input = [] := List.length_eq_zero_iff.mp (Nat.lt_one_iff.mp h)
    simp only [automatonStep, hs, stepSps_nil hin, stepSpe_nil hin, stepSearchSync_nil hin]
  case sync | synched => simp only [automatonStep, hs, stepSync_short h, stepSynched_short h]

/-- With enough, it answers the count that its control state names (R74, R105). -/
theorem automatonStep_count {s : State} (h : stepLength s.state ≤ s.input.length) :
    (automatonStep s).1 = stepLength s.state := by
  cases hs : s.state <;> rw [hs] at h
  case searchPreambleStart | searchPreambleEnd | searchSync =>
    obtain ⟨x, rest, hin⟩ := List.exists_cons_of_length_pos h
    simp only [automatonStep, hs, stepSps_cons hin, stepSpe_cons hin, stepSearchSync_cons hin, stepLength]
  case sync | synched => simp only [automatonStep, hs, stepSync_full h, stepSynched_full h, stepLength]

/-- Settles O9: the count is the control state's or 0, and a step takes as many symbols as it answers. -/
theorem stepReadsAllOrNothing : Obligations.StepReadsAllOrNothing := by
  intro s
  refine ⟨automatonStep_short, fun henough => ?_⟩
  have hcount := automatonStep_count henough
  obtain ⟨d, hd, hlen⟩ := State.Takes.automatonStep s
  have hlen : (symbolsOf d).length = stepLength s.state := hlen.trans hcount
  refine ⟨hcount, ?_, by rw [hd.consumed_eq, hlen]⟩
  rw [hd.input_eq, ← hlen, List.drop_left]

end Sys2Proof.Machine
end

section
/-! The test bench's encoder ENC (family 30_encoding). The reduction of SYNDROME is linear, leaves a remainder in bits 9..0
and leaves such a remainder alone; so the check bits that make a word valid are the reduction of its message bits, and
the parity bit is the parity of the rest (R64, R80). -/

namespace Sys2Proof

namespace Codec

/-! ## The reduction (R89) -/

/-- No bit of w at position n or above is set. -/
def Below (n : Nat) (w : Word) : Prop := ∀ i, n ≤ i → w.getLsbD i = false

/-- The generator has degree 10 (R85). -/
theorem below_gpoly : Below 11 Config.gpoly :=
  fun _ hi => Nat.testBit_lt_two_pow (Nat.lt_of_lt_of_le (by decide) (Nat.pow_le_pow_right Nat.two_pos hi))

/-- A set bit 10 + n is cleared by g shifted by n, which touches no bit above it. -/
theorem below_xor_gpoly {n : Nat} {w : Word} (h : Below (10 + (n + 1)) w) (hbit : w.getLsbD (10 + n) = true) :
    Below (10 + n) (w ^^^ (Config.gpoly <<< n)) := by
  intro i hi
  have hwide : 10 + n < 32 := BitVec.lt_of_getLsbD hbit
  rw [BitVec.getLsbD_xor, BitVec.getLsbD_shiftLeft]
  rcases hi.eq_or_lt with rfl | hlt
  · have htop : Config.gpoly.getLsbD 10 = true := by decide
    rw [hbit, Nat.add_sub_cancel, htop]
    simp [hwide]
  · rw [h i hlt, below_gpoly (i - n) (by omega), Bool.and_false, Bool.xor_false]

theorem reduce_xor (n : Nat) (x y : Word) : reduce n (x ^^^ y) = reduce n x ^^^ reduce n y := by
  induction n generalizing x y with
  | zero => rfl
  | succ n ih =>
    rw [reduce, reduce, reduce, ← ih, BitVec.getLsbD_xor]
    congr 1
    cases x.getLsbD (10 + n) <;> cases y.getLsbD (10 + n)
    case false.false => rfl
    case false.true => exact BitVec.xor_assoc x y _
    case true.false => simp only [Bool.xor_false, if_true, Bool.false_eq_true, if_false]; ac_rfl
    case true.true =>
      generalize Config.gpoly <<< n = g
      have hcancel : (x ^^^ g) ^^^ (y ^^^ g) = x ^^^ y ^^^ (g ^^^ g) := by ac_rfl
      rw [BitVec.xor_self, BitVec.xor_zero] at hcancel
      exact hcancel.symm

/-- The reduction leaves a remainder: each iteration clears its bit (R89). -/
theorem below_reduce {n : Nat} {w : Word} (h : Below (10 + n) w) : Below 10 (reduce n w) := by
  induction n generalizing w with
  | zero => exact h
  | succ n ih =>
    rw [reduce]
    apply ih
    split
    next hbit => exact below_xor_gpoly h hbit
    next hbit =>
      intro i hi
      rcases hi.eq_or_lt with rfl | hlt
      · exact Bool.eq_false_iff.mpr hbit
      · exact h i hlt

theorem reduce_of_below (n : Nat) {w : Word} (h : Below 10 w) : reduce n w = w := by
  induction n with
  | zero => rfl
  | succ n ih => rw [reduce, h (10 + n) (Nat.le_add_right 10 n), if_neg Bool.false_ne_true, ih]

/-- A valid word is one whose bits 31..1 reduce to 0 and whose parity is even (R64). -/
theorem syndrome_eq_zero_iff (w : Word) :
    syndrome w = 0 ↔ reduce Config.bchK (w >>> 1) = 0 ∧ popcount w % 2 = 0 := by
  rw [syndrome]
  split
  next hodd =>
    have hbit : (reduce Config.bchK (w >>> 1) ||| 1#32 <<< (Config.bchN - Config.bchK)).getLsbD 10 = true := by
      simp [Config.bchN, Config.bchK]
    rw [oddParity, beq_iff_eq] at hodd
    refine iff_of_false (fun h => ?_) fun h => ?_
    · rw [h] at hbit; exact absurd hbit (by decide)
    · omega
  next heven =>
    rw [oddParity, beq_iff_eq] at heven
    rw [and_iff_left (by omega)]

/-! ## Message bits and check bits -/

theorem or_eq_xor_of_and_eq_zero {x y : Word} (h : x &&& y = 0) : x ||| y = x ^^^ y := by
  apply BitVec.eq_of_getLsbD_eq
  intro i _
  have hbit := congrArg (BitVec.getLsbD · i) h
  rw [BitVec.getLsbD_or, BitVec.getLsbD_xor]
  cases hx : x.getLsbD i <;> cases hy : y.getLsbD i <;> simp [hx, hy] at hbit ⊢

/-- The message bits in their place, above the ten check bits (R80). -/
def messagePart (d : BitVec 21) : Word := d.setWidth 32 <<< 10

theorem getLsbD_messagePart_low (d : BitVec 21) {i : Nat} (h : i < 10) : (messagePart d).getLsbD i = false := by
  simp [messagePart, h]

theorem getLsbD_messagePart (d : BitVec 21) (i : Nat) : (messagePart d).getLsbD (10 + i) = d.getLsbD i := by
  rw [messagePart, BitVec.getLsbD_shiftLeft, BitVec.getLsbD_setWidth, Nat.add_sub_cancel_left]
  rcases Nat.lt_or_ge i 21 with hi | hi
  · simp [show i < 32 by omega, show 10 + i < 32 by omega]
  · simp [BitVec.getLsbD_of_ge d i hi]

theorem below_messagePart (d : BitVec 21) : Below 31 (messagePart d) := by
  intro i hi
  obtain ⟨k, rfl⟩ := Nat.exists_eq_add_of_le (show 10 ≤ i by omega)
  rw [getLsbD_messagePart, BitVec.getLsbD_of_ge d k (by omega)]

/-- Check bits stand beside the message bits, and the reduction passes them through. -/
theorem reduce_messagePart_or (n : Nat) (d : BitVec 21) {l : Word} (h : Below 10 l) :
    reduce n (messagePart d ||| l) = reduce n (messagePart d) ^^^ l := by
  have hdisjoint : messagePart d &&& l = 0 := by
    apply BitVec.eq_of_getLsbD_eq
    intro i _
    rw [BitVec.getLsbD_and, BitVec.ofNat_eq_ofNat, BitVec.getLsbD_zero]
    rcases Nat.lt_or_ge i 10 with hi | hi
    · rw [getLsbD_messagePart_low d hi, Bool.false_and]
    · rw [h i hi, Bool.and_false]
  rw [or_eq_xor_of_and_eq_zero hdisjoint, reduce_xor, reduce_of_below n h]

/-- Bits 30..0 split into the message bits and the check bits. -/
theorem exists_check_bits {x : Word} (h : Below 31 x) :
    ∃ l, Below 10 l ∧ x = messagePart (x.extractLsb' 10 21) ||| l := by
  have hlow : ∀ i, ((x.extractLsb' 0 10).setWidth 32).getLsbD i = (decide (i < 10) && x.getLsbD i) := by
    intro i
    rw [BitVec.getLsbD_setWidth, BitVec.getLsbD_extractLsb', Nat.zero_add]
    rcases Nat.lt_or_ge i 32 with hi | hi
    · simp [hi]
    · simp [show ¬ i < 10 by omega]
  refine ⟨(x.extractLsb' 0 10).setWidth 32, fun i hi => ?_, ?_⟩
  · rw [hlow, decide_eq_false (Nat.not_lt.mpr hi), Bool.false_and]
  · apply BitVec.eq_of_getLsbD_eq
    intro i _
    rw [BitVec.getLsbD_or, hlow]
    rcases Nat.lt_or_ge i 10 with hi | hi
    · rw [getLsbD_messagePart_low _ hi, decide_eq_true hi, Bool.false_or, Bool.true_and]
    · obtain ⟨k, rfl⟩ := Nat.exists_eq_add_of_le hi
      rw [getLsbD_messagePart, BitVec.getLsbD_extractLsb']
      rcases Nat.lt_or_ge k 21 with hk | hk
      · simp [hk]
      · simp [h (10 + k) (by omega)]

/-- With bit 31 clear, the word that reduces to 0 over given message bits is theirs with their own remainder (R80). -/
theorem reduce_eq_zero_iff {x : Word} (h : Below 31 x) :
    reduce Config.bchK x = 0 ↔
      x = messagePart (x.extractLsb' 10 21) ||| reduce Config.bchK (messagePart (x.extractLsb' 10 21)) := by
  generalize hd : x.extractLsb' 10 21 = d
  have hremainder : Below 10 (reduce Config.bchK (messagePart d)) := below_reduce (below_messagePart d)
  constructor
  · intro hzero
    obtain ⟨l, hl, hx⟩ := exists_check_bits h
    rw [hd] at hx
    rw [hx, reduce_messagePart_or _ _ hl] at hzero
    rw [BitVec.xor_eq_zero_iff.mp hzero]
    exact hx
  · intro hx
    rw [hx, reduce_messagePart_or _ _ hremainder, BitVec.xor_self]
    rfl

/-! ## The parity bit -/

open Machine (shiftBit)

/-- The bit shifted in counts once. -/
theorem popcount_shiftBit (x : Word) (b : Bool) : popcount (shiftBit x b) = popcount (x <<< 1) + b.toNat := by
  cases b with
  | false => simp [shiftBit]
  | true =>
    have hdisjoint : (x <<< 1) &&& (1#32 <<< 0) = 0 := by
      ext i hi
      simp [BitVec.getElem_shiftLeft, BitVec.getElem_one]
      omega
    have hbit : shiftBit x true = x <<< 1 ||| 1#32 <<< 0 := rfl
    rw [hbit, or_eq_xor_of_and_eq_zero hdisjoint, popcount, popcountBelow_xor_of_disjoint hdisjoint]
    exact congrArg _ (popcount_shiftLeft_one (by decide))

/-- Exactly one parity bit makes the count even. -/
theorem popcount_shiftBit_even_iff (x : Word) (b : Bool) :
    popcount (shiftBit x b) % 2 = 0 ↔ b = oddParity (x <<< 1) := by
  rw [popcount_shiftBit, oddParity]
  rcases Nat.mod_two_eq_zero_or_one (popcount (x <<< 1)) with hx | hx <;> cases b <;> simp [hx, Nat.add_mod]

theorem parityBit_eq (u : Word) : BitVec.ofNat 32 (popcount u % 2) = if oddParity u then 1 else 0 := by
  rw [oddParity]
  rcases Nat.mod_two_eq_zero_or_one (popcount u) with hu | hu <;> rw [hu] <;> rfl

/-- A word is its bits 31..1 with its bit 0 shifted in. -/
theorem shiftBit_shiftRight (w : Word) : shiftBit (w >>> 1) (w.getLsbD 0) = w := by
  apply BitVec.eq_of_getLsbD_eq
  intro i hi
  rw [Machine.getLsbD_shiftBit _ _ hi]
  cases i with
  | zero => rfl
  | succ i => rw [if_neg i.succ_ne_zero, BitVec.getLsbD_ushiftRight, Nat.add_sub_cancel, Nat.add_comm]

theorem shiftRight_shiftBit {x : Word} (h : Below 31 x) (b : Bool) : shiftBit x b >>> 1 = x := by
  apply BitVec.eq_of_getLsbD_eq
  intro i hi
  rw [BitVec.getLsbD_ushiftRight]
  rcases Nat.lt_or_ge i 31 with hlt | hge
  · rw [Machine.getLsbD_shiftBit _ _ (by omega), if_neg (by omega), Nat.add_sub_cancel_left]
  · rw [h i hge, BitVec.getLsbD_of_ge _ _ (by omega)]

theorem below_shiftRight_one (w : Word) : Below 31 (w >>> 1) := by
  intro i hi
  rw [BitVec.getLsbD_ushiftRight, BitVec.getLsbD_of_ge _ _ (by omega)]

end Codec

/-! ## ENC -/

open Codec Machine

/-- Bits 31..1 of ENC: the message bits and their remainder (R80). -/
def encBody (d : BitVec 21) : Word := messagePart d ||| reduce Config.bchK (messagePart d)

theorem below_encBody (d : BitVec 21) : Below 31 (encBody d) := by
  intro i hi
  rw [encBody, BitVec.getLsbD_or, below_messagePart d i hi,
    below_reduce (n := Config.bchK) (below_messagePart d) i (by omega), Bool.false_or]

theorem extractLsb'_encBody (d : BitVec 21) : (encBody d).extractLsb' 10 21 = d := by
  apply BitVec.eq_of_getLsbD_eq
  intro i hi
  rw [BitVec.getLsbD_extractLsb', encBody, BitVec.getLsbD_or, getLsbD_messagePart,
    below_reduce (n := Config.bchK) (below_messagePart d) (10 + i) (by omega), decide_eq_true hi, Bool.true_and,
    Bool.or_false]

/-- ENC is its bits 31..1 and the parity bit (R80). -/
theorem enc_eq_shiftBit (d : BitVec 21) : enc d = shiftBit (encBody d) (oddParity (encBody d <<< 1)) :=
  congrArg (encBody d <<< 1 ||| ·) (parityBit_eq (encBody d <<< 1))

theorem enc_shiftRight (d : BitVec 21) : enc d >>> 1 = encBody d := by
  rw [enc_eq_shiftBit, shiftRight_shiftBit (below_encBody d)]

/-- Bits 31..11 of a word are bits 30..10 of its bits 31..1. -/
theorem extractLsb'_shiftRight (w : Word) : (w >>> 1).extractLsb' 10 21 = w.extractLsb' 11 21 := by
  apply BitVec.eq_of_getLsbD_eq
  intro i hi
  simp only [BitVec.getLsbD_extractLsb', BitVec.getLsbD_ushiftRight]
  rw [← Nat.add_assoc]

/-- Settles O31: a word is valid when its check bits are the remainder of its message bits and its parity bit makes the
count even, and both are what ENC writes. -/
theorem encIsTheOneValidWord : Obligations.EncIsTheOneValidWord := by
  constructor
  · intro d
    constructor
    · rw [syndrome_eq_zero_iff, enc_shiftRight, reduce_eq_zero_iff (below_encBody d), extractLsb'_encBody]
      refine ⟨rfl, ?_⟩
      rw [enc_eq_shiftBit, popcount_shiftBit_even_iff]
    · rw [← extractLsb'_shiftRight, enc_shiftRight, extractLsb'_encBody]
  · intro w hw
    obtain ⟨hcheck, hparity⟩ := (syndrome_eq_zero_iff w).mp hw
    have hbody : encBody (w.extractLsb' 11 21) = w >>> 1 := by
      rw [← extractLsb'_shiftRight]
      exact ((reduce_eq_zero_iff (below_shiftRight_one w)).mp hcheck).symm
    rw [← shiftBit_shiftRight w, popcount_shiftBit_even_iff] at hparity
    rw [enc_eq_shiftBit, hbody, ← hparity, shiftBit_shiftRight]

end Sys2Proof
end

section
/-! Counts of set bits and distances (family 40_bch_codec; R86 to R88). -/

namespace Sys2Proof.Codec

/-- The model's count is the library's. -/
theorem popcountBelow_eq_count (n : Nat) (w : Word) :
    popcountBelow n w = Nat.count (fun j => w.getLsbD j = true) n := by
  induction n with
  | zero => rfl
  | succ n ih => rw [popcountBelow, ih, Nat.count_succ, Nat.add_comm]

theorem popcount_eq_countP (w : Word) : popcount w = (List.range 32).countP fun j => w.getLsbD j := by
  rw [popcount, popcountBelow_eq_count, Nat.count, List.countP_congr (fun _ _ => decide_eq_true_iff)]

/-- A position where both words have a 1 is counted in each, and is 0 in their sum. -/
theorem popcountBelow_xor_add_and (n : Nat) (x y : Word) :
    popcountBelow n (x ^^^ y) + 2 * popcountBelow n (x &&& y) = popcountBelow n x + popcountBelow n y := by
  induction n with
  | zero => rfl
  | succ n ih =>
    simp only [popcountBelow, BitVec.getLsbD_xor, BitVec.getLsbD_and]
    cases x.getLsbD n <;> cases y.getLsbD n <;> simp <;> omega

theorem popcount_xor_add_and (x y : Word) :
    popcount (x ^^^ y) + 2 * popcount (x &&& y) = popcount x + popcount y :=
  popcountBelow_xor_add_and 32 x y

theorem popcount_xor_mod_two (x y : Word) : popcount (x ^^^ y) % 2 = (popcount x + popcount y) % 2 := by
  rw [← popcount_xor_add_and, Nat.add_mul_mod_self_left]

theorem hamming_comm (a b : Word) : hamming a b = hamming b a := by
  rw [hamming, hamming, BitVec.xor_comm]

theorem hamming_self (a : Word) : hamming a a = 0 := by
  rw [hamming, BitVec.xor_self]
  rfl

theorem hamming_triangle (a b c : Word) : hamming a c ≤ hamming a b + hamming b c := by
  have hcancel : a ^^^ c = a ^^^ b ^^^ (b ^^^ c) := by
    rw [BitVec.xor_assoc, ← BitVec.xor_assoc b b c, BitVec.xor_self, BitVec.zero_xor]
  rw [hamming, hamming, hamming, hcancel, ← popcount_xor_add_and]
  exact Nat.le_add_right ..

theorem xor_xor_xor_comm (a b c d : Word) : a ^^^ b ^^^ (c ^^^ d) = a ^^^ c ^^^ (b ^^^ d) := by ac_rfl

/-- Adding one word to two others keeps their distance. -/
theorem hamming_xor_left (c a b : Word) : hamming (c ^^^ a) (c ^^^ b) = hamming a b := by
  rw [hamming, xor_xor_xor_comm, BitVec.xor_self, BitVec.zero_xor, hamming]

/-- Settles O25: each count is the library's count of the positions. -/
theorem countsAreOfSetBits : Obligations.CountsAreOfSetBits := by
  intro a b s
  have hham : Codec.hamming a b = (List.range 32).countP fun j => a.getLsbD j != b.getLsbD j := by
    simp only [hamming, popcount_eq_countP, BitVec.getLsbD_xor, Bool.bne_eq_xor]
  refine ⟨?_, ?_, ?_⟩
  · rw [← popcount_eq_countP]; rfl
  · rw [← popcount_eq_countP]; rfl
  · rw [← hham]; rfl

end Sys2Proof.Codec
end

section
/-! SYNDROME (family 40_bch_codec; R89, R90): the loop is a long division by g, and it is linear. -/

namespace Sys2Proof.Codec

/-- The sum over GF(2) of g shifted by each i below n whose bit in q is set, on top of r: the long division's result
q * g + r, spelled as the statement of R89 spells it. -/
def addMultiples (n : Nat) (q : Nat → Bool) (r : Word) : Word :=
  (List.range n).foldl (fun acc i => if q i then acc ^^^ (Config.gpoly <<< i) else acc) r

theorem addMultiples_succ (n : Nat) (q : Nat → Bool) (r : Word) :
    addMultiples (n + 1) q r =
      if q n then addMultiples n q r ^^^ (Config.gpoly <<< n) else addMultiples n q r := by
  rw [addMultiples, List.range_succ, List.foldl_append]
  rfl

/-- Only the bits of the quotient below n are read. -/
theorem addMultiples_congr {n : Nat} {p q : Nat → Bool} (h : ∀ i < n, p i = q i) (r : Word) :
    addMultiples n p r = addMultiples n q r := by
  induction n with
  | zero => rfl
  | succ n ih =>
    rw [addMultiples_succ, addMultiples_succ, h n n.lt_succ_self, ih fun i hi => h i (Nat.lt_succ_of_lt hi)]

/-- The loop's last n iterations divide: the bits they find set are the quotient's. -/
theorem exists_quotient (n : Nat) (d : Word) : ∃ q : BitVec n, d = addMultiples n q.getLsbD (reduce n d) := by
  induction n generalizing d with
  | zero => exact ⟨0, rfl⟩
  | succ n ih =>
    obtain ⟨q, hq⟩ := ih (if d.getLsbD (10 + n) then d ^^^ (Config.gpoly <<< n) else d)
    refine ⟨BitVec.cons (d.getLsbD (10 + n)) q, ?_⟩
    have hlow : ∀ i < n, (BitVec.cons (d.getLsbD (10 + n)) q).getLsbD i = q.getLsbD i := fun i hi => by
      rw [BitVec.getLsbD_cons, if_neg hi.ne]
    rw [addMultiples_succ, addMultiples_congr hlow, reduce, ← hq, BitVec.getLsbD_cons, if_pos rfl]
    split
    next => rw [BitVec.xor_assoc, BitVec.xor_self, BitVec.xor_zero]
    next => rfl

/-- After the loop bits 31..10 are clear (R89). -/
theorem below_remainder (w : Word) : Below 10 (reduce Config.bchK (w >>> 1)) :=
  below_reduce (below_shiftRight_one w)

theorem Below.toNat_lt {n : Nat} {w : Word} (h : Below n w) : w.toNat < 2 ^ n :=
  Nat.lt_pow_two_of_testBit _ h

theorem syndrome_eq (w : Word) :
    syndrome w =
      if popcount w % 2 = 1 then reduce Config.bchK (w >>> 1) ||| 0x400 else reduce Config.bchK (w >>> 1) := by
  simp only [syndrome, oddParity, beq_iff_eq]
  rfl

/-- Settles O26: the loop is a long division by g, and its remainder is below 2^10. -/
theorem syndromeIsRemainderAndParity : Obligations.SyndromeIsRemainderAndParity := by
  intro w s
  obtain ⟨q, hq⟩ := exists_quotient Config.bchK (w >>> 1)
  refine ⟨q, reduce Config.bchK (w >>> 1), (below_remainder w).toNat_lt, hq, ?_⟩
  rw [← syndrome_eq]
  rfl

/-- SYNDROME's bit 10: set when the count is odd (R89). -/
def parityMark (w : Word) : Word := if popcount w % 2 = 1 then 0x400 else 0

theorem parityMark_xor (a b : Word) : parityMark (a ^^^ b) = parityMark a ^^^ parityMark b := by
  rw [parityMark, parityMark, parityMark, popcount_xor_mod_two, Nat.add_mod]
  rcases Nat.mod_two_eq_zero_or_one (popcount a) with ha | ha <;>
    rcases Nat.mod_two_eq_zero_or_one (popcount b) with hb | hb <;> rw [ha, hb] <;> rfl

/-- The parity bit stands above the remainder, so setting it is adding it. -/
theorem syndrome_eq_xor (w : Word) : syndrome w = reduce Config.bchK (w >>> 1) ^^^ parityMark w := by
  have hdisjoint : reduce Config.bchK (w >>> 1) &&& 0x400#32 = 0 := by
    apply BitVec.eq_of_toNat_eq
    have hlt := (below_remainder w).toNat_lt
    exact (Nat.and_two_pow _ 10).trans (by rw [Nat.testBit_lt_two_pow hlt]; rfl)
  rw [syndrome_eq, parityMark]
  split
  next => exact or_eq_xor_of_and_eq_zero hdisjoint
  next => exact (BitVec.xor_zero).symm

/-- Settles O27: the reduction and the parity are both linear. -/
theorem syndromeIsLinear : Obligations.SyndromeIsLinear := by
  intro a b
  rw [syndrome_eq_xor, syndrome_eq_xor, syndrome_eq_xor, parityMark_xor, BitVec.ushiftRight_xor_distrib, reduce_xor,
    xor_xor_xor_comm]

end Sys2Proof.Codec
end

section
/-! The minimum distance (family 40_bch_codec; R90(d)), by the argument behind BCH codes. g has the roots α and α^3 in
any field of characteristic 2 where α^5 = α^2 + 1, and the first 31 powers of α are distinct. Give bit 0 of a word the
locator 0 and bit i + 1 the locator α^i: the locators of a valid word's 1 bits then sum to 0, and so do their cubes,
which neither two nor four distinct elements do. -/

namespace Sys2Proof.Codec

/-! ## The positions of the 1 bits -/

/-- The positions of w's 1 bits. -/
def support (w : Word) : Finset Nat := {i ∈ Finset.range 32 | w.getLsbD i = true}

theorem mem_support {w : Word} {i : Nat} : i ∈ support w ↔ w.getLsbD i = true := by
  rw [support, Finset.mem_filter, Finset.mem_range, and_iff_right_iff_imp]
  exact BitVec.lt_of_getLsbD

theorem lt_of_mem_support {w : Word} {i : Nat} (h : i ∈ support w) : i < 32 :=
  Finset.mem_range.mp (Finset.mem_of_mem_filter i h)

theorem card_support (w : Word) : (support w).card = popcount w := by
  rw [popcount, popcountBelow_eq_count, Nat.count_eq_card_filter_range, support]

theorem support_injective : Function.Injective support := fun x y h =>
  BitVec.eq_of_getLsbD_eq fun i _ => Bool.eq_iff_iff.mpr (by rw [← mem_support, h, mem_support])

theorem popcount_eq_zero_iff {w : Word} : popcount w = 0 ↔ w = 0 := by
  have hempty : support 0 = ∅ := by decide
  rw [← card_support, Finset.card_eq_zero, ← hempty, support_injective.eq_iff]

theorem support_gpoly : support Config.gpoly = {0, 3, 5, 6, 8, 9, 10} := by decide

/-- A left shift that loses no 1 bit moves every position up. -/
theorem support_shiftLeft {n : Nat} {w : Word} (h : Below (32 - n) w) :
    support (w <<< n) = (support w).map (addRightEmbedding n) := by
  ext i
  simp only [mem_support, BitVec.getLsbD_shiftLeft, Finset.mem_map, addRightEmbedding_apply, Bool.and_eq_true,
    decide_eq_true_eq, Bool.not_eq_true', decide_eq_false_iff_not]
  constructor
  · rintro ⟨⟨-, hn⟩, hbit⟩
    exact ⟨i - n, hbit, Nat.sub_add_cancel (Nat.not_lt.mp hn)⟩
  · rintro ⟨j, hbit, rfl⟩
    have hj : j < 32 - n := by
      by_contra hge
      rw [h j (Nat.not_lt.mp hge)] at hbit
      exact Bool.false_ne_true hbit
    rw [Nat.add_sub_cancel]
    exact ⟨⟨by omega, by omega⟩, hbit⟩

/-! ## Sums over the 1 bits -/

section

variable {K : Type} [Field K]

/-- The sum of a value per position over the 1 bits of w. -/
def bitSum (x : Nat → K) (w : Word) : K := ∑ i ∈ support w, x i

theorem bitSum_eq_sum_range (x : Nat → K) (w : Word) :
    bitSum x w = ∑ i ∈ Finset.range 32, if w.getLsbD i = true then x i else 0 := by
  rw [bitSum, support, Finset.sum_filter]

theorem bitSum_zero (x : Nat → K) : bitSum x 0 = 0 := rfl

/-- The value of w at β, with bit i as the coefficient of β^i. -/
def valueAt (β : K) (w : Word) : K := bitSum (β ^ ·) w

theorem valueAt_shiftLeft (β : K) {n : Nat} {w : Word} (h : Below (32 - n) w) :
    valueAt β (w <<< n) = valueAt β w * β ^ n := by
  rw [valueAt, bitSum, support_shiftLeft h, Finset.sum_map, valueAt, bitSum, Finset.sum_mul]
  exact Finset.sum_congr rfl fun i _ => pow_add β i n

theorem valueAt_gpoly (β : K) : valueAt β Config.gpoly = 1 + β ^ 3 + β ^ 5 + β ^ 6 + β ^ 8 + β ^ 9 + β ^ 10 := by
  rw [valueAt, bitSum, support_gpoly]
  simp
  ring

/-- The locator of a bit: 0 for the parity bit, and β^i for the coefficient of x^i. -/
def locator (β : K) : Nat → K
  | 0 => 0
  | i + 1 => β ^ i

theorem locator_pow_three (β : K) (i : Nat) : locator (β ^ 3) i = locator β i ^ 3 := by
  cases i with
  | zero => exact (zero_pow three_ne_zero).symm
  | succ i => exact pow_right_comm β 3 i

theorem bitSum_locator (β : K) (w : Word) : bitSum (locator β) w = valueAt β (w >>> 1) := by
  rw [valueAt, bitSum_eq_sum_range, bitSum_eq_sum_range, Finset.sum_range_succ' _ 31, Finset.sum_range_succ _ 31,
    below_shiftRight_one w 31 (Nat.le_refl 31)]
  simp [locator, BitVec.getLsbD_ushiftRight, Nat.add_comm]

theorem ne_zero_of_root {α : K} (hα : α ^ 5 = α ^ 2 + 1) : α ≠ 0 := by
  rintro rfl
  simp at hα

/-! ## Valid words at a root of g -/

variable [CharP K 2]

/-- In characteristic 2 a position that both words have counts twice, that is, not at all. -/
theorem bitSum_xor (x : Nat → K) (a b : Word) : bitSum x (a ^^^ b) = bitSum x a + bitSum x b := by
  rw [bitSum_eq_sum_range, bitSum_eq_sum_range, bitSum_eq_sum_range, ← Finset.sum_add_distrib]
  refine Finset.sum_congr rfl fun i _ => ?_
  rw [BitVec.getLsbD_xor]
  cases a.getLsbD i <;> cases b.getLsbD i <;> simp [CharTwo.add_self_eq_zero]

/-- At a root of g the reduction keeps the value: each iteration adds 0. -/
theorem valueAt_reduce {β : K} (hroot : valueAt β Config.gpoly = 0) {n : Nat} (hn : n ≤ 22) (d : Word) :
    valueAt β (reduce n d) = valueAt β d := by
  induction n generalizing d with
  | zero => rfl
  | succ n ih =>
    have hshift : valueAt β (Config.gpoly <<< n) = 0 := by
      rw [valueAt_shiftLeft β fun i hi => below_gpoly i (by omega), hroot, zero_mul]
    rw [reduce, ih (by omega)]
    split
    next => rw [valueAt, bitSum_xor, ← valueAt, ← valueAt, hshift, add_zero]
    next => rfl

/-- The locators of a valid word's 1 bits sum to 0, whichever root of g they are made of. -/
theorem bitSum_locator_of_valid {β : K} (hroot : valueAt β Config.gpoly = 0) {w : Word} (h : syndrome w = 0) :
    bitSum (locator β) w = 0 := by
  rw [bitSum_locator, ← valueAt_reduce hroot (n := Config.bchK) (by decide), ((syndrome_eq_zero_iff w).mp h).1]
  exact bitSum_zero _

/-! ## Two or four locators -/

theorem sum_ne_zero_of_card_two {s : Finset K} (hcard : s.card = 2) : ∑ x ∈ s, x ≠ 0 := by
  classical
  obtain ⟨a, b, hab, rfl⟩ := Finset.card_eq_two.mp hcard
  rw [Finset.sum_pair hab]
  exact fun h => hab (CharTwo.add_eq_zero.mp h)

/-- Of four distinct elements d = a + b + c, the cubes sum to (a + b)(b + c)(c + a). -/
theorem sum_pow_three_ne_zero_of_card_four {s : Finset K} (hcard : s.card = 4) (hsum : ∑ x ∈ s, x = 0) :
    ∑ x ∈ s, x ^ 3 ≠ 0 := by
  classical
  obtain ⟨d, t, hd, rfl, ht⟩ := Finset.card_eq_succ.mp hcard
  obtain ⟨a, b, c, hab, hac, hbc, rfl⟩ := Finset.card_eq_three.mp ht
  have hsum3 : ∀ f : K → K, ∑ x ∈ ({a, b, c} : Finset K), f x = f a + f b + f c := fun f => by
    rw [Finset.sum_insert (by simp [hab, hac]), Finset.sum_pair hbc, add_assoc]
  rw [Finset.sum_insert hd, hsum3] at hsum ⊢
  have hfactor : d ^ 3 + (a ^ 3 + b ^ 3 + c ^ 3) = (a + b) * (b + c) * (a + c) := by
    rw [CharTwo.add_eq_zero.mp hsum]
    linear_combination (a ^ 3 + b ^ 3 + c ^ 3 + (a + b) * (b + c) * (a + c)) * CharTwo.two_eq_zero (R := K)
  rw [hfactor]
  exact mul_ne_zero (mul_ne_zero (mt CharTwo.add_eq_zero.mp hab) (mt CharTwo.add_eq_zero.mp hbc))
    (mt CharTwo.add_eq_zero.mp hac)

/-! ## The roots of g -/

variable {α : K} (hα : α ^ 5 = α ^ 2 + 1)
include hα

/-- α is a root of g. -/
theorem valueAt_gpoly_root : valueAt α Config.gpoly = 0 := by
  rw [valueAt_gpoly]
  linear_combination (3 + 2 * α + α ^ 2 + α ^ 3 + α ^ 4 + α ^ 5) * hα +
    (2 + α + 2 * α ^ 2 + 2 * α ^ 3 + α ^ 4) * CharTwo.two_eq_zero (R := K)

/-- β = α^3 is a root of β^5 + β^4 + β^3 + β^2 + 1, which divides g over GF(2). -/
theorem valueAt_gpoly_root_pow_three : valueAt (α ^ 3) Config.gpoly = 0 := by
  have hroot : (α ^ 3) ^ 5 + (α ^ 3) ^ 4 + (α ^ 3) ^ 3 + (α ^ 3) ^ 2 + 1 = 0 := by
    linear_combination (1 + 4 * α + 3 * α ^ 2 + 3 * α ^ 4 + α ^ 5 + 2 * α ^ 7 + α ^ 10) * hα +
      (1 + 2 * α + 2 * α ^ 2 + 2 * α ^ 3 + 3 * α ^ 4) * CharTwo.two_eq_zero (R := K)
  rw [valueAt_gpoly]
  generalize α ^ 3 = β at hroot ⊢
  linear_combination (β ^ 5 - β ^ 2 + 2 * β - 1) * hroot + (1 - β + β ^ 2) * CharTwo.two_eq_zero (R := K)

/-- α lies in the field of 32 elements. -/
theorem root_pow_thirtyTwo : α ^ 32 = α := by
  have h8 : α ^ 8 = α ^ 3 + α ^ 2 + 1 := by linear_combination (α ^ 3 + 1) * hα
  have h16 : α ^ 16 = α ^ 4 + α ^ 3 + α + 1 := by
    calc α ^ 16 = (α ^ 8) ^ 2 := by ring
      _ = α ^ 6 + α ^ 4 + 1 := by rw [h8, CharTwo.add_sq, CharTwo.add_sq]; ring
      _ = α ^ 4 + α ^ 3 + α + 1 := by linear_combination α * hα
  calc α ^ 32 = (α ^ 16) ^ 2 := by ring
    _ = α ^ 8 + α ^ 6 + α ^ 2 + 1 := by rw [h16, CharTwo.add_sq, CharTwo.add_sq, CharTwo.add_sq]; ring
    _ = α := by
      rw [h8]
      linear_combination α * hα + (1 + α ^ 2 + α ^ 3) * CharTwo.two_eq_zero (R := K)

theorem orderOf_root : orderOf α = 31 := by
  have hprime : Fact (Nat.Prime 31) := ⟨by norm_num⟩
  have hpow : α ^ 31 = 1 := mul_left_cancel₀ (ne_zero_of_root hα) (by rw [← pow_succ', mul_one, root_pow_thirtyTwo hα])
  refine orderOf_eq_prime hpow ?_
  rintro rfl
  simp [CharTwo.add_self_eq_zero] at hα

theorem locator_injOn : Set.InjOn (locator α) (Set.Iio 32) := by
  have hpow : Set.InjOn (α ^ ·) (Set.Iio 31) := orderOf_root hα ▸ pow_injOn_Iio_orderOf
  have hne : ∀ i, α ^ i ≠ 0 := fun i => pow_ne_zero i (ne_zero_of_root hα)
  intro i hi j hj h
  rw [Set.mem_Iio] at hi hj
  cases i <;> cases j
  case zero.zero => rfl
  case zero.succ j => exact absurd h.symm (hne j)
  case succ.zero i => exact absurd h (hne i)
  case succ.succ i j => exact congrArg (· + 1) (hpow (Set.mem_Iio.mpr (by omega)) (Set.mem_Iio.mpr (by omega)) h)

/-- No valid word has two or four 1 bits: their locators would be distinct and sum to 0, and their cubes too. -/
theorem popcount_ne_of_root {w : Word} (h : syndrome w = 0) : popcount w ≠ 2 ∧ popcount w ≠ 4 := by
  classical
  have hinj : Set.InjOn (locator α) (support w) := (locator_injOn hα).mono fun i hi => lt_of_mem_support hi
  have hcard : ((support w).image (locator α)).card = popcount w := by
    rw [Finset.card_image_of_injOn hinj, card_support]
  have hsum : ∑ x ∈ (support w).image (locator α), x = 0 :=
    (Finset.sum_image hinj).trans (bitSum_locator_of_valid (valueAt_gpoly_root hα) h)
  have hcubes : ∑ x ∈ (support w).image (locator α), x ^ 3 = 0 := by
    rw [Finset.sum_image hinj, ← bitSum_locator_of_valid (valueAt_gpoly_root_pow_three hα) h]
    exact Finset.sum_congr rfl fun i _ => (locator_pow_three α i).symm
  constructor
  · intro hw
    exact sum_ne_zero_of_card_two (hcard.trans hw) hsum
  · intro hw
    exact sum_pow_three_ne_zero_of_card_four (hcard.trans hw) hsum hcubes

end

open Polynomial in
/-- The algebraic closure of GF(2) has a root of x^5 + x^2 + 1. -/
theorem exists_root : ∃ α : AlgebraicClosure (ZMod 2), α ^ 5 = α ^ 2 + 1 := by
  have hdegree : (X ^ 5 + (X ^ 2 + 1) : (AlgebraicClosure (ZMod 2))[X]).degree ≠ 0 := by
    have hfive : (X ^ 5 + (X ^ 2 + 1) : (AlgebraicClosure (ZMod 2))[X]).degree = 5 := by compute_degree!
    rw [hfive]
    decide
  obtain ⟨α, hα⟩ := IsAlgClosed.exists_root _ hdegree
  refine ⟨α, CharTwo.add_eq_zero.mp ?_⟩
  simpa using hα

/-- The smallest nonzero valid word has six 1 bits or more (R90(d)). -/
theorem six_le_popcount {w : Word} (h : syndrome w = 0) (hne : w ≠ 0) : 6 ≤ popcount w := by
  obtain ⟨α, hα⟩ := exists_root
  obtain ⟨htwo, hfour⟩ := popcount_ne_of_root hα h
  have heven := ((syndrome_eq_zero_iff w).mp h).2
  have hzero : popcount w ≠ 0 := mt popcount_eq_zero_iff.mp hne
  omega

theorem syndrome_xor_eq_zero {a b : Word} (ha : syndrome a = 0) (hb : syndrome b = 0) : syndrome (a ^^^ b) = 0 := by
  rw [syndromeIsLinear, ha, hb]
  rfl

theorem six_le_hamming {a b : Word} (ha : syndrome a = 0) (hb : syndrome b = 0) (hne : a ≠ b) : 6 ≤ hamming a b :=
  six_le_popcount (syndrome_xor_eq_zero ha hb) (mt BitVec.xor_eq_zero_iff.mp hne)

/-- Settles O30: the sum of two valid words is a valid word, and 0x430B is one of weight 6. -/
theorem validWordsAreSixApart : Obligations.ValidWordsAreSixApart :=
  ⟨fun _ _ => six_le_hamming, 0, 0x430B, by decide +kernel⟩

end Sys2Proof.Codec
end

section
/-! CORRECT (family 40_bch_codec; R91 to R93). Its candidates are all the words at distance 1 and 2, so it finds a valid
word within distance 2 if there is one; the minimum distance 6 makes that word unique. -/

namespace Sys2Proof.Codec

/-! ## Words with one or two 1 bits -/

theorem support_shiftLeft_one {a : Nat} (ha : a < 32) : support (1#32 <<< a) = {a} := by
  have hone : support 1#32 = {0} := by decide
  rw [support_shiftLeft fun i hi => Nat.testBit_lt_two_pow (Nat.one_lt_two_pow (by omega)), hone, Finset.map_singleton,
    addRightEmbedding_apply, Nat.zero_add]

theorem mem_support_xor {x y : Word} {i : Nat} : i ∈ support (x ^^^ y) ↔ ¬ (i ∈ support x ↔ i ∈ support y) := by
  rw [mem_support, mem_support, mem_support, BitVec.getLsbD_xor]
  cases x.getLsbD i <;> cases y.getLsbD i <;> decide

theorem support_two_bits {a b : Nat} (hab : a < b) (hb : b < 32) :
    support (1#32 <<< a ^^^ 1#32 <<< b) = {a, b} := by
  ext i
  rw [mem_support_xor, support_shiftLeft_one (hab.trans hb), support_shiftLeft_one hb, Finset.mem_singleton,
    Finset.mem_singleton, Finset.mem_insert, Finset.mem_singleton]
  omega

theorem exists_of_popcount_one {e : Word} (h : popcount e = 1) : ∃ a < 32, e = 1#32 <<< a := by
  rw [← card_support] at h
  obtain ⟨a, ha⟩ := Finset.card_eq_one.mp h
  have ha32 : a < 32 := lt_of_mem_support (ha ▸ Finset.mem_singleton_self a)
  exact ⟨a, ha32, support_injective (ha.trans (support_shiftLeft_one ha32).symm)⟩

theorem exists_of_popcount_two {e : Word} (h : popcount e = 2) :
    ∃ a b, a < b ∧ b < 32 ∧ e = 1#32 <<< a ^^^ 1#32 <<< b := by
  rw [← card_support] at h
  obtain ⟨a, b, hne, hab⟩ := Finset.card_eq_two.mp h
  wlog hlt : a < b generalizing a b
  · exact this b a hne.symm (hab.trans (Finset.pair_comm a b)) (by omega)
  have hb32 : b < 32 := lt_of_mem_support (hab ▸ Finset.mem_insert_of_mem (Finset.mem_singleton_self b))
  exact ⟨a, b, hlt, hb32, support_injective (hab.trans (support_two_bits hlt hb32).symm)⟩

/-! ## The search -/

theorem mem_singleFlips {a : Nat} (ha : a < 32) (w : Word) : w ^^^ 1#32 <<< a ∈ singleFlips w :=
  List.mem_map_of_mem (List.mem_range.mpr ha)

theorem mem_doubleFlips {a b : Nat} (hab : a < b) (hb : b < 32) (w : Word) :
    w ^^^ 1#32 <<< a ^^^ 1#32 <<< b ∈ doubleFlips w :=
  List.mem_flatMap.mpr ⟨a, List.mem_range.mpr (hab.trans hb),
    List.mem_map_of_mem (List.mem_range'_1.mpr ⟨hab, by omega⟩)⟩

/-- The candidates of CORRECT are all the words at distance 1 or 2 (R91). -/
theorem mem_flips_of_hamming {v w : Word} (hne : v ≠ w) (h : hamming v w ≤ 2) :
    v ∈ singleFlips w ++ doubleFlips w := by
  have hv : v = w ^^^ (v ^^^ w) := by
    rw [BitVec.xor_comm v w, ← BitVec.xor_assoc, BitVec.xor_self, BitVec.zero_xor]
  have hpos : popcount (v ^^^ w) ≠ 0 := fun h0 => hne (BitVec.xor_eq_zero_iff.mp (popcount_eq_zero_iff.mp h0))
  rcases (show popcount (v ^^^ w) = 1 ∨ popcount (v ^^^ w) = 2 by rw [hamming] at h; omega) with hone | htwo
  · obtain ⟨a, ha, he⟩ := exists_of_popcount_one hone
    rw [hv, he]
    exact List.mem_append_left _ (mem_singleFlips ha w)
  · obtain ⟨a, b, hab, hb, he⟩ := exists_of_popcount_two htwo
    rw [hv, he, ← BitVec.xor_assoc]
    exact List.mem_append_right _ (mem_doubleFlips hab hb w)

/-- The search finds a valid word if one is near. -/
theorem syndrome_correct_of_near {v w : Word} (hv : syndrome v = 0) (h : hamming v w ≤ 2) :
    syndrome (correct w) = 0 := by
  unfold correct
  split
  next hw => exact (valid_iff w).mp hw
  next hw =>
    have hne : v ≠ w := fun hvw => hw ((valid_iff w).mpr (hvw ▸ hv))
    split
    next c hfound => exact (valid_iff c).mp (List.find?_some hfound)
    next hnone => exact absurd ((valid_iff v).mpr hv) (List.find?_eq_none.mp hnone v (mem_flips_of_hamming hne h))

theorem hamming_correct_le (w : Word) : hamming (correct w) w ≤ 2 := by
  by_cases hw : correct w = w
  · rw [hw, hamming_self]
    exact Nat.zero_le 2
  · have := hamming_correct_of_ne hw
    omega

/-- Two valid words near w would be at most 4 apart (R92). -/
theorem correct_eq_of_near {v w : Word} (hv : syndrome v = 0) (h : hamming v w ≤ 2) : correct w = v := by
  by_contra hne
  have hfar := six_le_hamming (syndrome_correct_of_near hv h) hv hne
  have hnear := hamming_triangle (correct w) w v
  have hcorrect := hamming_correct_le w
  rw [hamming_comm w v] at hnear
  omega

/-- Settles O28: the search is complete and the near valid word unique. -/
theorem correctFindsTheUniqueNearWord : Obligations.CorrectFindsTheUniqueNearWord := by
  intro w s
  refine ⟨correct w, rfl, ?_⟩
  by_cases hc : syndrome (correct w) = 0
  · exact .inl ⟨hc, hamming_correct_le w, fun v hv hnear => (correct_eq_of_near hv hnear).symm⟩
  · refine .inr ⟨(correct_valid_or_eq w).resolve_left (mt (valid_iff _).mp hc), fun v hv => ?_⟩
    by_contra hnear
    exact hc (syndrome_correct_of_near hv (Nat.le_of_not_lt hnear))

/-! ## What correction guarantees -/

/-- Three errors or more are never undone: a valid answer is another word, so the errors and the correction together
make up the minimum distance, and both counts have the same parity. -/
theorem of_syndrome_correct_eq_zero {c e : Word} (hc : syndrome c = 0) (he : 3 ≤ popcount e)
    (hv : syndrome (correct (c ^^^ e)) = 0) :
    correct (c ^^^ e) ≠ c ∧ 6 ≤ hamming (correct (c ^^^ e)) (c ^^^ e) + popcount e ∧
      hamming (correct (c ^^^ e)) (c ^^^ e) % 2 = popcount e % 2 := by
  have hnear := hamming_correct_le (c ^^^ e)
  have hsent : hamming (c ^^^ e) c = popcount e := hamming_xor_self c e
  generalize correct (c ^^^ e) = v at hv hnear ⊢
  have hne : v ≠ c := by
    rintro rfl
    rw [hamming_comm] at hnear
    omega
  refine ⟨hne, ?_, ?_⟩
  · rw [← hsent]
    exact (six_le_hamming hv hc hne).trans (hamming_triangle v (c ^^^ e) c)
  · have hvc := popcount_xor_mod_two v (c ^^^ e)
    have hce := popcount_xor_mod_two c e
    have hveven := ((syndrome_eq_zero_iff v).mp hv).2
    have hceven := ((syndrome_eq_zero_iff c).mp hc).2
    rw [hamming]
    omega

/-- Four or five of the six 1 bits of a valid word lead to its sum with the word sent. -/
theorem correct_xor_of_subset {c e v : Word} (hc : syndrome c = 0) (he : 4 ≤ popcount e) (hv : syndrome v = 0)
    (hsix : popcount v = 6) (hsub : e &&& v = e) : correct (c ^^^ e) = c ^^^ v := by
  refine correct_eq_of_near (syndrome_xor_eq_zero hc hv) ?_
  have hcount := popcount_xor_add_and e v
  rw [hsub] at hcount
  rw [hamming_xor_left, hamming_comm, hamming]
  omega

theorem uncorrectable_iff (w : Word) : uncorrectable w = true ↔ syndrome (correct w) ≠ 0 := bne_iff_ne

/-- Settles O29: up to two errors leave the word sent the near valid word; with more, a valid answer lies 6 or more from
the word sent, which bounds from below how far CORRECT moved. -/
theorem correctionGuarantee : Obligations.CorrectionGuarantee := by
  refine ⟨?_, ?_, ?_, ?_, ?_, ?_⟩
  · intro c e hc he
    exact correct_eq_of_near hc (by rwa [hamming_comm, hamming_xor_self])
  · intro c e hc he hv
    obtain ⟨-, hsix, -⟩ := of_syndrome_correct_eq_zero hc he.ge hv
    have hnear := hamming_correct_le (c ^^^ e)
    omega
  · exact fun c e v hc he => correct_xor_of_subset hc he.ge
  · exact fun c e v hc he => correct_xor_of_subset hc (by omega)
  all_goals
    intro c e hc he
    rw [uncorrectable_iff, or_iff_not_imp_left, not_not]
    intro hv
    obtain ⟨hne, hsix, hparity⟩ := of_syndrome_correct_eq_zero hc (by omega) hv
    have hnear := hamming_correct_le (c ^^^ e)
    exact ⟨hv, hne, by omega⟩

end Sys2Proof.Codec
end

section
/-! The step rules one by one (family 41_sync_automaton; R102 to R110, R113, R114): each operation's next state written
out field by field. -/

namespace Sys2Proof.Machine

/-- Settles O3: the operation is that one update. -/
theorem setDebugWritesDebugOnly : Obligations.SetDebugWritesDebugOnly := fun _ _ => rfl

/-- Settles O4: the registers are what STATUS copies. -/
theorem statusCopiesAndWritesNothing : Obligations.StatusCopiesAndWritesNothing := fun _ => rfl

/-! ## The dispatch (R102) -/

/-- The operation that the control state selects hands back the automaton's step. -/
theorem exec_stepOf (s : State) : exec (stepOf s.state) s = .next (answerStep (automatonStep s)) := by
  cases hs : s.state <;> simp only [automatonStep, hs] <;> rfl

/-- A control state reads one symbol or one word. -/
theorem stepLength_eq (c : ControlState) : stepLength c = 1 ∨ stepLength c = 32 := by cases c <;> simp [stepLength]

theorem stepLength_pos (c : ControlState) : 0 < stepLength c := by cases c <;> simp [stepLength]

/-- A step that consumes nothing changes nothing, for want of input (R102, R105). -/
theorem automatonStep_stops_iff (s : State) : (automatonStep s).1 = 0 ↔ s.input.length < stepLength s.state := by
  rcases Nat.lt_or_ge s.input.length (stepLength s.state) with hshort | hfull
  · simp only [automatonStep_short hshort, hshort]
  · have hcount := automatonStep_count hfull
    rcases stepLength_eq s.state with hlen | hlen <;> omega

/-- A step that consumes something consumes what its control state reads, and that much is there. -/
theorem automatonStep_count_of_ne_zero {s : State} (h : (automatonStep s).1 ≠ 0) :
    (automatonStep s).1 = stepLength s.state ∧ stepLength s.state ≤ s.input.length := by
  have hfull : stepLength s.state ≤ s.input.length := Nat.le_of_not_lt (mt (automatonStep_stops_iff s).mpr h)
  exact ⟨automatonStep_count hfull, hfull⟩

/-- Settles O8: the dispatch runs the selected rule, which takes nothing for want of input or what it reads. -/
theorem stepDispatchesOnControlState : Obligations.StepDispatchesOnControlState := by
  intro s
  refine ⟨exec_stepOf s, ?_⟩
  rcases Nat.lt_or_ge s.input.length (stepLength s.state) with hshort | hfull
  · rw [automatonStep_short hshort]
    exact ⟨.inl rfl, Nat.zero_le _, rfl, fun _ => rfl⟩
  · obtain ⟨_, hread⟩ := stepReadsAllOrNothing s
    obtain ⟨hcount, hinput, _⟩ := hread hfull
    rw [hcount]
    have hlen := stepLength_eq s.state
    exact ⟨.inr hlen, hfull, hinput, fun h => by omega⟩

/-! ## The search steps -/

theorem exec_stepSps (s : State) : exec .stepSps s = .next (answerStep (stepSps s)) := rfl

theorem exec_stepSpe (s : State) : exec .stepSpe s = .next (answerStep (stepSpe s)) := rfl

theorem exec_stepSearchSync (s : State) : exec .stepSearchSync s = .next (answerStep (stepSearchSync s)) := rfl

/-- Settles O10: one symbol is shifted in, and the preamble match decides. -/
theorem stepSpsShiftsAndMatchesPreamble : Obligations.StepSpsShiftsAndMatchesPreamble := by
  intro s
  refine ⟨fun hin => by rw [exec_stepSps, stepSps_nil hin]; rfl, ?_⟩
  rintro x rest _ hin rfl
  rw [exec_stepSps, stepSps_cons hin, shiftBit_storedBit, shiftSymbol_eq hin]
  generalize s.acc <<< 1 ||| (if x then 0 else 1) = a
  split <;> rfl

/-- Settles O11: one symbol is shifted in, and a broken alternation leads to `Sync`. -/
theorem stepSpeShiftsAndLeavesOnBreak : Obligations.StepSpeShiftsAndLeavesOnBreak := by
  intro s
  refine ⟨fun hin => by rw [exec_stepSpe, stepSpe_nil hin]; rfl, ?_⟩
  rintro x rest _ hin rfl
  rw [exec_stepSpe, stepSpe_cons hin, shiftBit_storedBit, shiftSymbol_eq hin]
  generalize s.acc <<< 1 ||| (if x then 0 else 1) = a
  split <;> rfl

/-- Settles O12: one symbol is shifted in, and a SYNC match enters `Synched`. -/
theorem stepSearchSyncMatchesWithinTwo : Obligations.StepSearchSyncMatchesWithinTwo := by
  intro s
  refine ⟨fun hin => by rw [exec_stepSearchSync, stepSearchSync_nil hin]; rfl, ?_⟩
  rintro x rest _ hin rfl
  rw [exec_stepSearchSync, stepSearchSync_cons hin, shiftBit_storedBit, shiftSymbol_eq hin]
  generalize s.acc <<< 1 ||| (if x then 0 else 1) = a
  by_cases hmatch : Codec.hamming a 0x7CD215D8 ≤ 2
  · rw [if_pos ((syncMatches_iff a).mpr hmatch), if_pos hmatch, if_pos hmatch]; rfl
  · rw [if_neg (mt (syncMatches_iff a).mp hmatch), if_neg hmatch, if_neg hmatch]; rfl

/-! ## The word steps -/

/-- A word consumed, field by field (R47, R55). -/
theorem consume_word {s : State} {syms rest : List Symbol} (hin : s.input = syms ++ rest) (hlen : syms.length = 32) :
    consume 32 s =
      { s with input := rest, consumed := s.consumed + 32, trace := s.trace ++ [.symbols syms] } := by
  rw [consume, hin, ← hlen, List.drop_left, List.take_left]

theorem nextWord_of_input {s : State} {syms rest : List Symbol} (hin : s.input = syms ++ rest)
    (hlen : syms.length = 32) : nextWord s = wordOfSymbols syms := by
  rw [nextWord_eq, hin, ← hlen, List.take_left]

theorem exec_stepSync (s : State) : exec .stepSync s = .next (answerStep (stepSync s)) := rfl

theorem exec_stepSynched (s : State) : exec .stepSynched s = .next (answerStep (stepSynched s)) := rfl

/-- Loss of sync with a message to emit, field by field (R154, R155, R160). -/
theorem loseSync_of_emissible {s : State} (e : Event) (h : emissible s.msg = true) :
    loseSync e s =
      { s with
        state := s.cfg.initialState
        acc := 0
        msg := (msgReset s).msg
        out := s.out ++ [recordOf s false]
        ev := s.ev ++ [e]
        trace := s.trace ++ [.event e, .record (recordOf s false)] } := by
  rcases loseSync_cases e s with ⟨_, hlost⟩ | ⟨hnone, _⟩
  · simp [hlost, enterInitial, msgReset, appendRecord, raiseEvent, recordOf]
  · rw [h] at hnone; cases hnone

/-- Loss of sync without one. -/
theorem loseSync_of_not_emissible {s : State} (e : Event) (h : emissible s.msg = false) :
    loseSync e s =
      { s with
        state := s.cfg.initialState
        acc := 0
        msg := (msgReset s).msg
        ev := s.ev ++ [e]
        trace := s.trace ++ [.event e] } := by
  rcases loseSync_cases e s with ⟨hemits, _⟩ | ⟨_, hlost⟩
  · rw [h] at hemits; cases hemits
  · rw [hlost]; rfl

theorem emissible_eq_false {m : Message} (haddress : m.address = 0) (htext : m.text = []) : emissible m = false := by
  simp only [Bool.eq_false_iff, ne_eq, emissible_iff, haddress, htext, not_true_eq_false, or_self, not_false_eq_true]

/-- Settles O13: a match is the return, and a miss is loss of sync, which emits when E holds. -/
theorem stepSyncReacquiresOrLosesSync : Obligations.StepSyncReacquiresOrLosesSync := by
  intro s
  refine ⟨fun hshort => by rw [exec_stepSync, stepSync_short hshort]; rfl, ?_⟩
  rintro syms rest w hin hlen rfl
  have hfull : 32 ≤ s.input.length := by rw [hin, List.length_append]; omega
  rw [exec_stepSync, stepSync_full hfull, nextWord_of_input hin hlen, consume_word hin hlen]
  generalize wordOfSymbols syms = w
  have hmiss (h : 2 < Codec.hamming w 0x7CD215D8) : ¬ syncMatches w = true :=
    mt (syncMatches_iff w).mp (Nat.not_le.mpr h)
  refine ⟨fun hmatch => ?_, fun hdist hE => ?_, fun hdist haddress htext => ?_⟩
  · rw [if_pos ((syncMatches_iff w).mpr hmatch)]; rfl
  · rw [if_neg (hmiss hdist), loseSync_of_emissible _ (by exact (emissible_iff s.msg).mpr hE), List.append_assoc]
    rfl
  · rw [if_neg (hmiss hdist), loseSync_of_not_emissible _ (by exact emissible_eq_false haddress htext),
      List.append_assoc]
    rfl

/-! ## A word of the batch (R114) -/

/-- What the class of a valid word does, at the index `word_count`. -/
def classAction (c : Word) (s : State) : State :=
  if c = Config.syncWord then syncInBatchWord s.wordCount s else assemble c s.wordCount s

/-- The word class that a valid word selects runs that action. -/
theorem exec_classifyCorrected {c : Word} (h : Codec.valid c = true) (s : State) :
    exec (classifyCorrected c) s = .next (answer .nothing (classAction c s)) := by
  rw [classifyCorrected_of_correctable (Codec.uncorrectable_of_valid h)]
  unfold classAction assemble
  split
  · rfl
  · split
    · rfl
    · split <;> rfl

@[simp] theorem noteCorrection_wordCount (c w : Word) (s : State) : (noteCorrection c w s).wordCount = s.wordCount := by
  rcases noteCorrection_cases c w s with ⟨_, h⟩ | ⟨_, h⟩ <;> rw [h]; rfl

@[simp] theorem classAction_state (c : Word) (s : State) : (classAction c s).state = s.state := by
  unfold classAction
  split
  · rfl
  · exact assemble_state c _ s

@[simp] theorem classAction_wordCount (c : Word) (s : State) : (classAction c s).wordCount = s.wordCount := by
  unfold classAction
  split
  · rfl
  · obtain ⟨_, _, _, _, hcount, _⟩ := assemble_frame c s.wordCount s
    exact hcount

theorem noteCorrection_self (w : Word) (s : State) : noteCorrection w w s = s := if_pos rfl

theorem noteCorrection_of_ne {c w : Word} (h : c ≠ w) (s : State) :
    noteCorrection c w s = raiseEvent { kind := .corrected, info := .count (Codec.hamming c w) } s := if_neg h

/-- A word that CORRECT makes valid: noted if it was changed, its class's action, and the count. -/
theorem synchedWord_of_valid {w : Word} (h : Codec.valid (Codec.correct w) = true) (s : State) :
    synchedWord w s =
      { classAction (Codec.correct w) (noteCorrection (Codec.correct w) w s) with
        wordCount := s.wordCount + 1
        state := if s.wordCount + 1 = 16 then .sync else s.state } := by
  have hcounted : synchedWord w s =
      countWord (classAction (Codec.correct w) (noteCorrection (Codec.correct w) w s)) := by
    unfold classAction
    rw [noteCorrection_wordCount]
    rcases synchedWord_cases w s with ⟨hnot, _⟩ | ⟨_, hsync, heq⟩ | ⟨_, hsync, heq⟩
    · rw [h] at hnot; cases hnot
    · rw [if_pos hsync]; exact heq
    · rw [if_neg hsync]; exact heq
  rw [hcounted, countWord_eq, classAction_wordCount, classAction_state, noteCorrection_wordCount, noteCorrection_state]

theorem synchedWord_of_not_valid {w : Word} (h : Codec.valid (Codec.correct w) = false) (s : State) :
    synchedWord w s = uncorrectableWord w s := by
  rcases synchedWord_cases w s with ⟨_, heq⟩ | ⟨hvalid, _⟩ | ⟨hvalid, _⟩
  · exact heq
  · rw [h] at hvalid; cases hvalid
  · rw [h] at hvalid; cases hvalid

/-- Settles O14: the word read is the UNCORRECTABLE class, or CORRECT's word is noted, classified and counted. -/
theorem stepSynchedCorrectsClassifiesAndCounts : Obligations.StepSynchedCorrectsClassifiesAndCounts := by
  intro s
  refine ⟨fun hshort => by rw [exec_stepSynched, stepSynched_short hshort]; rfl, ?_⟩
  rintro syms rest w r hin hlen rfl hr
  have hfull : 32 ≤ s.input.length := by rw [hin, List.length_append]; omega
  rw [exec_stepSynched, stepSynched_full hfull, nextWord_of_input hin hlen, consume_word hin hlen, ← hr]
  have hcount : r.wordCount = s.wordCount := by rw [hr]
  have hstate : r.state = s.state := by rw [hr]
  generalize wordOfSymbols syms = w
  refine ⟨fun hlost => ?_, fun hok hsame => ?_, fun hok hchanged => ?_⟩
  · have hvalid : Codec.valid (Codec.correct w) = false := Bool.eq_false_iff.mpr (mt (Codec.valid_iff _).mp hlost)
    rw [synchedWord_of_not_valid hvalid]
    exact ⟨_, rfl, rfl⟩
  · have hvalid : Codec.valid (Codec.correct w) = true := (Codec.valid_iff _).mpr hok
    rw [synchedWord_of_valid hvalid, hsame, noteCorrection_self, hcount, hstate]
    rw [hsame] at hvalid
    exact ⟨_, exec_classifyCorrected hvalid r, rfl⟩
  · have hvalid : Codec.valid (Codec.correct w) = true := (Codec.valid_iff _).mpr hok
    rw [synchedWord_of_valid hvalid, noteCorrection_of_ne hchanged, hcount, hstate]
    generalize Codec.correct w = c at hvalid
    exact ⟨_, exec_classifyCorrected hvalid (raiseEvent _ r), rfl⟩

/-! ## SHIFT_IN and PREAMBLE_MATCH (R106, R107) -/

/-- The shift of the library, one bit appended at the low end. -/
theorem shiftBit_eq_shiftConcat (w : Word) (b : Bool) : shiftBit w b = w.shiftConcat b := by
  apply BitVec.eq_of_getLsbD_eq
  intro i hi
  rw [getLsbD_shiftBit w b hi, BitVec.getLsbD_shiftConcat]
  by_cases h : i = 0 <;> simp [h, hi]

/-- Settles O23: the shift appends the bit at the low end. -/
theorem shiftInInsertsAtTheLowEnd : Obligations.ShiftInInsertsAtTheLowEnd := by
  intro b s
  refine ⟨shiftBit s.acc b, rfl, ?_⟩
  rw [shiftBit_eq_shiftConcat, BitVec.toNat_shiftConcat, Nat.shiftLeft_eq, pow_one, Nat.mul_comm]

/-- The mask keeps the low L bits. -/
theorem getLsbD_lowMask {L : Nat} (hL : L ≤ 32) (i : Nat) : (lowMask L).getLsbD i = decide (i < L) := by
  have hmask : (lowMask L).toNat = 2 ^ L - 1 := by
    rcases Nat.lt_or_eq_of_le hL with hlt | rfl
    · have hpow : 2 ^ L < 2 ^ 32 := Nat.pow_lt_pow_right (by decide) hlt
      have hpos : 0 < 2 ^ L := Nat.two_pow_pos L
      have hone : (1#32).toNat = 1 := rfl
      rw [lowMask, BitVec.toNat_sub, BitVec.toNat_shiftLeft, Nat.shiftLeft_eq]
      change (2 ^ 32 - 1 + 1 * 2 ^ L % 2 ^ 32) % 2 ^ 32 = _
      omega
    · rfl
  rw [BitVec.getLsbD, hmask, Nat.testBit_two_pow_sub_one]

/-- Masked words are equal exactly when their low L bits are. -/
theorem and_lowMask_eq_iff {L : Nat} (hL : L ≤ 32) (a p : Word) :
    a &&& lowMask L = p &&& lowMask L ↔ ∀ i, i < L → a.getLsbD i = p.getLsbD i := by
  refine ⟨fun h i hi => ?_, fun h => BitVec.eq_of_getLsbD_eq fun i _ => ?_⟩
  · simpa only [BitVec.getLsbD_and, getLsbD_lowMask hL, hi, decide_true, Bool.and_true] using
      congrArg (BitVec.getLsbD · i) h
  · rw [BitVec.getLsbD_and, BitVec.getLsbD_and, getLsbD_lowMask hL]
    by_cases hi : i < L <;> simp [hi, h]

/-- PA_L and PB_L are the odd and the even bit positions (R71). -/
theorem getLsbD_preamble {i : Nat} (hi : i < 32) :
    (0xAAAAAAAA#32).getLsbD i = decide (i % 2 = 1) ∧ (0x55555555#32).getLsbD i = decide (i % 2 = 0) := by
  decide +revert

theorem preambleB_eq (L : Nat) : preambleB L = 0x55555555#32 &&& lowMask L := by
  have hcomplement : 0x55555555#32 = ~~~0xAAAAAAAA#32 := by decide
  rw [preambleB, preambleA, hcomplement]
  generalize 0xAAAAAAAA#32 = p, lowMask L = m
  ext i hi
  cases hmask : m[i] <;> simp [hmask]

/-- PREAMBLE_MATCH compares the low L bits with the two patterns (R71). -/
theorem preambleMatches_iff_parity {L : Nat} (hL : L ≤ 32) (a : Word) :
    preambleMatches L a = true ↔
      (∀ i, i < L → a.getLsbD i = decide (i % 2 = 1)) ∨ (∀ i, i < L → a.getLsbD i = decide (i % 2 = 0)) := by
  rw [preambleMatches, preambleB_eq, preambleA, Bool.or_eq_true, beq_iff_eq, beq_iff_eq, and_lowMask_eq_iff hL,
    and_lowMask_eq_iff hL]
  refine or_congr (forall₂_congr fun i hi => ?_) (forall₂_congr fun i hi => ?_)
  · rw [(getLsbD_preamble (hi.trans_le hL)).1]
  · rw [(getLsbD_preamble (hi.trans_le hL)).2]

/-- Bits that alternate from bit 0 on are fixed by bit 0. -/
theorem getLsbD_of_alternates {L : Nat} {a : Word} (h : ∀ i, i + 1 < L → a.getLsbD i ≠ a.getLsbD (i + 1)) {i : Nat}
    (hi : i < L) : a.getLsbD i = (a.getLsbD 0 ^^ decide (i % 2 = 1)) := by
  induction i with
  | zero => exact (Bool.xor_false _).symm
  | succ i ih =>
    have hnext : a.getLsbD (i + 1) = !a.getLsbD i := Bool.eq_not.mpr (h i hi).symm
    have hparity : decide ((i + 1) % 2 = 1) = !decide (i % 2 = 1) := by
      rcases Nat.mod_two_eq_zero_or_one i with hpar | hpar <;> simp [Nat.add_mod, hpar]
    rw [hnext, ih (Nat.lt_of_succ_lt hi), hparity, Bool.xor_not]

theorem preambleMatches_iff_alternates {L : Nat} (hL : L ≤ 32) (a : Word) :
    preambleMatches L a = true ↔ ∀ i, i + 1 < L → a.getLsbD i ≠ a.getLsbD (i + 1) := by
  rw [preambleMatches_iff_parity hL]
  constructor
  · rintro (hodd | heven) i hi
    · rw [hodd i (Nat.lt_of_succ_lt hi), hodd (i + 1) hi, ne_eq, decide_eq_decide]
      omega
    · rw [heven i (Nat.lt_of_succ_lt hi), heven (i + 1) hi, ne_eq, decide_eq_decide]
      omega
  · intro halt
    cases hfirst : a.getLsbD 0 with
    | false => exact .inl fun i hi => by rw [getLsbD_of_alternates halt hi, hfirst, Bool.false_xor]
    | true =>
      refine .inr fun i hi => ?_
      rw [getLsbD_of_alternates halt hi, hfirst, Bool.true_xor, ← decide_not, decide_eq_decide]
      omega

/-- Settles O24: the patterns are the two ways to alternate. -/
theorem preambleMatchIsStrictAlternation : Obligations.PreambleMatchIsStrictAlternation := fun a _ _ hL =>
  ⟨_, rfl, preambleMatches_iff_parity hL a, preambleMatches_iff_alternates hL a⟩

end Sys2Proof.Machine
end

section
/-! The machine's step (family 41_sync_automaton; R100, R167, R172): what is placed, the host's next action, or
nothing. -/

namespace Sys2Proof.Machine

/-- Settles O38: a placed request comes first, and without one the first pending action is taken off the list. -/
theorem stepRunsTheNextAction : Obligations.StepRunsTheNextAction := by
  intro s rest
  refine ⟨fun hplaced => ?_, fun r hplaced => ?_⟩
  · have hstep {a : HostAction} (hpending : s.pending = a :: rest) :
        step s = runAction a { s with pending := rest } := by
      rw [step_of_host hplaced, runHost, hpending]
    have hoperation {code : Nat} {operand : Operand} (hpending : s.pending = .operation code operand :: rest) :
        step s = runDecoded (decode ⟨.hostOp, code, operand⟩) { s with pending := rest } := hstep hpending
    refine ⟨fun code operand i hpending hdecode => ?_, fun code operand e hpending hdecode => ?_,
      fun n hpending => hstep hpending, fun n hpending => hstep hpending, fun hpending => ?_⟩
    · rw [hoperation hpending, hdecode]; rfl
    · rw [hoperation hpending, hdecode]; rfl
    · rw [step_of_host hplaced, runHost, hpending]
  · rw [step_of_placed hplaced]
    exact ⟨fun i hdecode => by rw [hdecode]; rfl, fun e hdecode => by rw [hdecode]; rfl⟩

/-- No operation places one: RESET leaves none, and the others keep what is placed. -/
theorem exec_placed {i : Instr} {s t : State} (hplaced : s.placed = none) (hexec : exec i s = .next t) :
    t.placed = none := by
  by_cases hreset : ∃ c, i = .reset c
  · obtain ⟨c, rfl⟩ := hreset
    change execReset c s = .next t at hexec
    unfold execReset at hexec
    split at hexec
    · split at hexec <;> cases hexec
      rfl
    · cases hexec
  · obtain ⟨u, hu, _, _, _, _, hkept⟩ := onlyResetReconfigures i s fun c h => hreset ⟨c, h⟩
    obtain rfl : u = t := by rw [hu] at hexec; cases hexec; rfl
    exact hkept.trans hplaced

/-- Settles O53: the host's list has only its four operations and the removals, and none of these places anything. -/
theorem hostReachesOnlyItsFourOperations : Obligations.HostReachesOnlyItsFourOperations := by
  intro s t hplaced hstep
  rw [step_of_host hplaced] at hstep
  rcases runHost_cases s with
    ⟨hpending, hrun⟩ | ⟨rest, ⟨n, hpending, hrun⟩ | ⟨n, hpending, hrun⟩ | ⟨code, operand, hpending, hrun⟩⟩ <;>
    rw [hrun] at hstep
  · cases hstep
    exact ⟨hplaced, .inl ⟨hpending, rfl⟩⟩
  · cases hstep
    exact ⟨hplaced, .inr ⟨rest, .inl ⟨n, hpending, rfl⟩⟩⟩
  · cases hstep
    exact ⟨hplaced, .inr ⟨rest, .inr (.inl ⟨n, hpending, rfl⟩)⟩⟩
  · cases hdecode : decodeHostOp code operand with
    | error e => rw [hdecode] at hstep; cases hstep
    | ok i =>
      rw [hdecode] at hstep
      have hexec : exec i { s with pending := rest } = .next t := hstep
      exact ⟨exec_placed (s := { s with pending := rest }) hplaced hexec,
        .inr ⟨rest, .inr (.inr ⟨code, operand, i, hpending, decodeHostOp_isHostOperation hdecode, hexec⟩)⟩⟩

end Sys2Proof.Machine
end

section
/-! Which control state a step leads to (family 41_sync_automaton, section 4; R122). -/

namespace Sys2Proof.Machine

/-! ## The step of each control state, with enough input -/

theorem automatonStep_searchPreambleStart {s : State} {x : Symbol} {rest : List Symbol}
    (hs : s.state = .searchPreambleStart) (hin : s.input = x :: rest) :
    automatonStep s =
      (1, if preambleMatches s.cfg.preambleLen (shiftBit s.acc (storedBit x))
        then { shiftSymbol x s with state := .searchPreambleEnd } else shiftSymbol x s) := by
  rw [← stepSps_cons hin, automatonStep, hs]

theorem automatonStep_searchPreambleEnd {s : State} {x : Symbol} {rest : List Symbol}
    (hs : s.state = .searchPreambleEnd) (hin : s.input = x :: rest) :
    automatonStep s =
      (1, if preambleMatches s.cfg.preambleLen (shiftBit s.acc (storedBit x))
        then shiftSymbol x s else { shiftSymbol x s with state := .sync }) := by
  rw [← stepSpe_cons hin, automatonStep, hs]

theorem automatonStep_searchSync {s : State} {x : Symbol} {rest : List Symbol}
    (hs : s.state = .searchSync) (hin : s.input = x :: rest) :
    automatonStep s =
      (1, if syncMatches (shiftBit s.acc (storedBit x)) then enterSynched (shiftSymbol x s) else shiftSymbol x s) := by
  rw [← stepSearchSync_cons hin, automatonStep, hs]

theorem automatonStep_sync {s : State} (hs : s.state = .sync) (hlen : 32 ≤ s.input.length) :
    automatonStep s =
      (32, if syncMatches (nextWord s) then enterSynched (consume 32 s)
        else loseSync { kind := .syncMiss, info := .word (nextWord s) } (consume 32 s)) := by
  rw [← stepSync_full hlen, automatonStep, hs]

theorem automatonStep_synched {s : State} (hs : s.state = .synched) (hlen : 32 ≤ s.input.length) :
    automatonStep s = (32, synchedWord (nextWord s) (consume 32 s)) := by
  rw [← stepSynched_full hlen, automatonStep, hs]

/-- A search step shifts its symbol into the accumulator, whatever it leads to (R106). -/
theorem automatonStep_acc {s : State} {x : Symbol} {rest : List Symbol} (hs : stepLength s.state = 1)
    (hin : s.input = x :: rest) : (automatonStep s).2.acc = shiftBit s.acc (storedBit x) := by
  cases hstate : s.state with
  | searchPreambleStart => rw [automatonStep_searchPreambleStart hstate hin]; dsimp only; split <;> rfl
  | searchPreambleEnd => rw [automatonStep_searchPreambleEnd hstate hin]; dsimp only; split <;> rfl
  | searchSync => rw [automatonStep_searchSync hstate hin]; dsimp only; split <;> rfl
  | sync | synched => rw [hstate] at hs; cases hs

/-! ## The transitions -/

@[simp] theorem loseSync_state (e : Event) (s : State) : (loseSync e s).state = s.cfg.initialState := by
  obtain ⟨_, _, hstate, _⟩ := loseSync_frame e s
  exact hstate

@[simp] theorem loseSync_wordCount (e : Event) (s : State) : (loseSync e s).wordCount = s.wordCount := by
  obtain ⟨_, _, _, _, hcount, _⟩ := loseSync_frame e s
  exact hcount

@[simp] theorem loseSync_ev (e : Event) (s : State) : (loseSync e s).ev = s.ev ++ [e] := by
  obtain ⟨_, _, _, _, _, _, _, _, hev, _⟩ := loseSync_frame e s
  exact hev

/-- A word of the batch loses sync or is counted (R114). -/
theorem synchedWord_state (w : Word) (s : State) :
    (synchedWord w s).state =
      if Codec.uncorrectable w then s.cfg.initialState else if s.wordCount + 1 = 16 then .sync else s.state := by
  rw [Codec.uncorrectable_eq_not_valid]
  cases hv : Codec.valid (Codec.correct w) with
  | false => rw [synchedWord_of_not_valid hv]; exact loseSync_state _ s
  | true => rw [synchedWord_of_valid hv]; rfl

theorem synchedWord_wordCount (w : Word) (s : State) :
    (synchedWord w s).wordCount = if Codec.uncorrectable w then s.wordCount else s.wordCount + 1 := by
  rw [Codec.uncorrectable_eq_not_valid]
  cases hv : Codec.valid (Codec.correct w) with
  | false => rw [synchedWord_of_not_valid hv]; exact loseSync_wordCount _ s
  | true => rw [synchedWord_of_valid hv]; rfl

/-- A step that consumed something had a symbol to read. -/
theorem exists_input_of_ne_zero {s : State} (h : (automatonStep s).1 ≠ 0) : ∃ x rest, s.input = x :: rest := by
  obtain ⟨_, hfull⟩ := automatonStep_count_of_ne_zero h
  have hlen := stepLength_eq s.state
  exact List.exists_cons_of_length_pos (by omega)

/-- Settles O43: each row is the step rule of its control state. -/
theorem transitionRelation : Obligations.TransitionRelation := by
  intro s hne
  obtain ⟨_, hfull⟩ := automatonStep_count_of_ne_zero hne
  obtain ⟨x, rest, hin⟩ := exists_input_of_ne_zero hne
  refine ⟨fun hs => ?_, fun hs => ?_, fun hs => ?_, fun hs => ?_, fun hs => ?_⟩
  · rw [automatonStep_searchPreambleStart hs hin]
    cases hmatch : preambleMatches s.cfg.preambleLen (shiftBit s.acc (storedBit x)) <;>
      simp [hmatch, shiftSymbol, hs]
  · rw [automatonStep_searchPreambleEnd hs hin]
    cases hmatch : preambleMatches s.cfg.preambleLen (shiftBit s.acc (storedBit x)) <;>
      simp [hmatch, shiftSymbol, hs]
  · rw [automatonStep_searchSync hs hin]
    simp only [← syncMatches_iff]
    cases hmatch : syncMatches (shiftBit s.acc (storedBit x)) <;> simp [hmatch, shiftSymbol, hs]
  · rw [hs] at hfull
    rw [automatonStep_sync hs hfull, ← nextWord_eq]
    simp only [← syncMatches_iff]
    cases hmatch : syncMatches (nextWord s) <;> simp
  · rw [hs] at hfull
    rw [automatonStep_synched hs hfull, ← nextWord_eq]
    dsimp only
    rw [synchedWord_state, consume_state, hs]
    rfl

/-- A change of the control state takes a step that consumes something (R102). -/
theorem ne_zero_of_state_ne {s : State} (h : (automatonStep s).2.state ≠ s.state) : (automatonStep s).1 ≠ 0 :=
  fun hzero => h (by rw [automatonStep_short ((automatonStep_stops_iff s).mp hzero)])

/-- `Sync` is entered when the alternation ends, or at the end of a batch (R122). -/
theorem enters_sync {s : State} (hlegal : s.cfg.initialState = .searchSync ∨ s.cfg.initialState = .searchPreambleStart)
    (henters : (automatonStep s).2.state = .sync) (hs : s.state ≠ .sync) :
    s.state = .searchPreambleEnd ∨
      (s.state = .synched ∧ s.wordCount = 15 ∧ (automatonStep s).2.wordCount = 16) := by
  have hne := ne_zero_of_state_ne (henters ▸ hs.symm)
  obtain ⟨hsps, _, hsearch, _, hsynched⟩ := transitionRelation s hne
  cases hstate : s.state with
  | searchPreambleStart => rw [hsps hstate] at henters; split at henters <;> cases henters
  | searchPreambleEnd => exact .inl rfl
  | sync => exact absurd hstate hs
  | searchSync => rw [hsearch hstate] at henters; split at henters <;> cases henters
  | synched =>
    rw [hsynched hstate] at henters
    split at henters
    · rw [henters] at hlegal
      rcases hlegal with h | h <;> cases h
    next hkept =>
      split at henters
      next hlast =>
        obtain ⟨_, hfull⟩ := automatonStep_count_of_ne_zero hne
        rw [hstate] at hfull
        refine .inr ⟨rfl, by omega, ?_⟩
        rw [automatonStep_synched hstate hfull, nextWord_eq]
        dsimp only
        rw [synchedWord_wordCount, if_neg hkept]
        exact hlast
      next => cases henters

/-- `Synched` is entered on a SYNC match, with the word index 0 (R115, R122). -/
theorem enters_synched {s : State}
    (hlegal : s.cfg.initialState = .searchSync ∨ s.cfg.initialState = .searchPreambleStart)
    (henters : (automatonStep s).2.state = .synched) (hs : s.state ≠ .synched) :
    (automatonStep s).2.wordCount = 0 ∧
      ((s.state = .searchSync ∧ Codec.hamming (automatonStep s).2.acc 0x7CD215D8 ≤ 2) ∨
        (s.state = .sync ∧ Codec.hamming (wordOfSymbols (s.input.take 32)) 0x7CD215D8 ≤ 2)) := by
  have hne := ne_zero_of_state_ne (henters ▸ hs.symm)
  obtain ⟨hsps, hspe, hsearch, hsync, _⟩ := transitionRelation s hne
  cases hstate : s.state with
  | searchPreambleStart => rw [hsps hstate] at henters; split at henters <;> cases henters
  | searchPreambleEnd => rw [hspe hstate] at henters; split at henters <;> cases henters
  | synched => exact absurd hstate hs
  | searchSync =>
    rw [hsearch hstate] at henters
    split at henters
    next hmatch =>
      refine ⟨?_, .inl ⟨rfl, hmatch⟩⟩
      obtain ⟨x, rest, hin⟩ := exists_input_of_ne_zero hne
      rw [automatonStep_acc (by rw [hstate]; rfl) hin] at hmatch
      rw [automatonStep_searchSync hstate hin, if_pos ((syncMatches_iff _).mpr hmatch)]
      rfl
    next => cases henters
  | sync =>
    rw [hsync hstate] at henters
    split at henters
    next hmatch =>
      refine ⟨?_, .inr ⟨rfl, hmatch⟩⟩
      obtain ⟨_, hfull⟩ := automatonStep_count_of_ne_zero hne
      rw [hstate] at hfull
      rw [automatonStep_sync hstate hfull, nextWord_eq, if_pos ((syncMatches_iff _).mpr hmatch)]
      rfl
    next =>
      rw [henters] at hlegal
      rcases hlegal with h | h <;> cases h

/-- Settles O55: the entries of the transition table. -/
theorem entriesIntoSyncAndSynched : Obligations.EntriesIntoSyncAndSynched := fun _ hlegal =>
  ⟨enters_sync hlegal, enters_synched hlegal⟩

end Sys2Proof.Machine
end

section
/-! WORK (family 41_sync_automaton; R101, R119, R120): the chain of consuming steps that it runs, where the chain ends, and
that neither the symbols still to come nor the last result bear on it. -/

namespace Sys2Proof.Machine

/-! ## Chains of consuming steps -/

theorem State.Takes.le_length {s t : State} {n : Nat} (h : s.Takes n t) : n ≤ s.input.length := by
  obtain ⟨d, hd, rfl⟩ := h
  rw [hd.input_eq, List.length_append]
  exact Nat.le_add_right _ _

theorem State.Takes.input_eq_drop {s t : State} {n : Nat} (h : s.Takes n t) : t.input = s.input.drop n := by
  obtain ⟨d, hd, rfl⟩ := h
  rw [hd.input_eq, List.drop_left]

theorem State.Takes.consumed_eq {s t : State} {n : Nat} (h : s.Takes n t) : t.consumed = s.consumed + n := by
  obtain ⟨d, hd, rfl⟩ := h
  exact hd.consumed_eq

namespace StepsTo

theorem trans {s t u : State} {m n : Nat} (h : StepsTo s m t) (h' : StepsTo t n u) : StepsTo s (m + n) u := by
  induction h with
  | none s => rwa [Nat.zero_add]
  | more hstep _ ih => rw [Nat.add_assoc]; exact .more hstep (ih h')

/-- One more step at the end of a chain. -/
theorem concat {s t u : State} {m n : Nat} (h : StepsTo s m t) (hstep : automatonStep t = (n + 1, u)) :
    StepsTo s (m + (n + 1)) u := h.trans (.more hstep (.none u))

/-- A chain keeps what every step keeps. -/
theorem keeps {P : State → Prop} (hP : ∀ s, P s → P (automatonStep s).2) {s t : State} {n : Nat} (h : StepsTo s n t)
    (hs : P s) : P t := by
  induction h with
  | none s => exact hs
  | more hstep _ ih =>
    have hnext := hP _ hs
    rw [hstep] at hnext
    exact ih hnext

theorem takes {s t : State} {n : Nat} (h : StepsTo s n t) : s.Takes n t := by
  induction h with
  | none s => exact State.Takes.refl s
  | @more s t u n k hstep _ ih =>
    have hfirst := State.Takes.automatonStep s
    rw [hstep] at hfirst
    exact hfirst.trans ih

end StepsTo

/-- From every state there is a chain that ends where a step needs more input than is left (R119). -/
theorem exists_stepsTo (s : State) : ∃ n t, StepsTo s n t ∧ (automatonStep t).1 = 0 := by
  induction hlen : s.input.length using Nat.strong_induction_on generalizing s with
  | _ len ih =>
    rcases hstep : automatonStep s with ⟨k, t⟩
    cases k with
    | zero => exact ⟨0, s, .none s, by rw [hstep]⟩
    | succ k =>
      have htakes := State.Takes.automatonStep s
      rw [hstep] at htakes
      have hle := htakes.le_length
      have hshorter : t.input.length < len := by rw [htakes.input_eq_drop, List.length_drop]; omega
      obtain ⟨n, u, hchain, hstop⟩ := ih _ hshorter t rfl
      exact ⟨_, u, .more hstep hchain, hstop⟩

/-- WORK's loop runs to the end of a chain, given as much fuel as symbols. -/
theorem runSteps_of_stepsTo {s t : State} {n : Nat} (h : StepsTo s n t) (hstop : (automatonStep t).1 = 0) (k : Nat)
    {fuel : Nat} (hfuel : n ≤ fuel) : runSteps fuel k s = (k + n, t) := by
  induction h generalizing fuel k with
  | none s => exact runSteps_stop hstop fuel k
  | @more s t u m n hstep _ ih =>
    obtain ⟨fuel, rfl⟩ : ∃ f, fuel = f + 1 := Nat.exists_eq_add_of_le' (by omega)
    rw [runSteps_go hstep, ih hstop _ (by omega), Nat.add_assoc]

/-- Where a maximal chain from the presented buffer ends, WORK ends, and answers the chain's count (R101). -/
theorem exec_work_of_stepsTo {buf : List Symbol} {s t : State} {n : Nat} (h : StepsTo { s with input := buf } n t)
    (hstop : t.input.length < stepLength t.state) :
    exec (.work buf) s = .next { t with input := [], reply := .count n } := by
  have hle : n ≤ buf.length := h.takes.le_length
  have hrun := runSteps_of_stepsTo h ((automatonStep_stops_iff t).mpr hstop) 0 (Nat.le_succ_of_le hle)
  change execWork buf s = _
  rw [execWork, hrun, Nat.zero_add]
  rfl

/-- Settles O5: the chain of steps that the loop runs. -/
theorem workRunsStepsUntilOneNeedsInput : Obligations.WorkRunsStepsUntilOneNeedsInput := by
  intro buf s
  obtain ⟨n, t, hchain, hstop⟩ := exists_stepsTo { s with input := buf }
  exact ⟨n, t, hchain, hstop, exec_work_of_stepsTo hchain ((automatonStep_stops_iff t).mp hstop)⟩

/-- Settles O6: the chain takes its count from the buffer, and its end lacks the symbols of a step. -/
theorem workCountLeavesLessThanAStep : Obligations.WorkCountLeavesLessThanAStep := by
  intro buf s
  obtain ⟨n, t, hchain, hstop⟩ := exists_stepsTo { s with input := buf }
  have hshort := (automatonStep_stops_iff t).mp hstop
  have htakes := hchain.takes
  refine ⟨n, _, exec_work_of_stepsTo hchain hshort, rfl, htakes.le_length, ?_, htakes.consumed_eq⟩
  rwa [htakes.input_eq_drop, List.length_drop] at hshort

/-! ## Symbols still to come -/

/-- s with further symbols behind those presented, and another last result. -/
def State.withMore (more : List Symbol) (r : Reply) (s : State) : State :=
  { s with input := s.input ++ more, reply := r }

/-- f reads neither the symbols still to come nor the last result, and leaves them as they are. -/
def BlindToMore (f : State → State) : Prop :=
  ∀ (more : List Symbol) (r : Reply) (s : State), f (s.withMore more r) = (f s).withMore more r

namespace BlindToMore

theorem comp {f g : State → State} (hf : BlindToMore f) (hg : BlindToMore g) : BlindToMore (fun s => f (g s)) :=
  fun more r s => (congrArg f (hg more r s)).trans (hf more r (g s))

theorem raiseEvent (e : Event) : BlindToMore (raiseEvent e) := fun _ _ _ => rfl

theorem msgReset : BlindToMore msgReset := fun _ _ _ => rfl

theorem emitIfEmissible (eom : Bool) : BlindToMore (emitIfEmissible eom) := by
  intro more r s
  rcases emitIfEmissible_cases eom s with ⟨hE, heq⟩ | ⟨hE, heq⟩ <;> rw [heq]
  · exact if_pos hE
  · exact if_neg (Bool.eq_false_iff.mp hE)

theorem loseSync (e : Event) : BlindToMore (loseSync e) :=
  comp (f := enterInitial) (fun _ _ _ => rfl) (msgReset.comp ((emitIfEmissible false).comp (raiseEvent e)))

theorem idleWord : BlindToMore idleWord := by
  intro more r s
  unfold Machine.idleWord
  change (if s.msg.active then _ else _) = _
  split
  · exact msgReset.comp (emitIfEmissible true) more r s
  · rfl

theorem withMessage (f : Message → Message) : BlindToMore fun s => { s with msg := f s.msg } := fun _ _ _ => rfl

theorem dataWord (c : Word) : BlindToMore (dataWord c) :=
  withMessage fun m => feedNumeric (payload c) (feedText (payload c) m)

theorem assemble (c : Word) (i : Nat) : BlindToMore (assemble c i) := by
  intro more r s
  unfold Machine.assemble
  split
  · exact idleWord more r s
  · split
    · exact dataWord c more r s
    · rfl

theorem classAction (c : Word) : BlindToMore (classAction c) := by
  intro more r s
  unfold Machine.classAction
  split
  · rfl
  · exact assemble c s.wordCount more r s

theorem noteCorrection (c w : Word) : BlindToMore (noteCorrection c w) := by
  intro more r s
  unfold Machine.noteCorrection
  split <;> rfl

theorem synchedWord (w : Word) : BlindToMore (synchedWord w) := by
  intro more r s
  cases hv : Codec.valid (Codec.correct w) with
  | false => rw [synchedWord_of_not_valid hv, synchedWord_of_not_valid hv]; exact loseSync _ more r s
  | true =>
    rw [synchedWord_of_valid hv, synchedWord_of_valid hv, noteCorrection _ w more r s, classAction _ more r]
    generalize Machine.classAction _ _ = t
    rfl

end BlindToMore

@[simp] theorem withMore_state (more : List Symbol) (r : Reply) (s : State) : (s.withMore more r).state = s.state := rfl

@[simp] theorem withMore_acc (more : List Symbol) (r : Reply) (s : State) : (s.withMore more r).acc = s.acc := rfl

@[simp] theorem withMore_cfg (more : List Symbol) (r : Reply) (s : State) : (s.withMore more r).cfg = s.cfg := rfl

@[simp] theorem withMore_input (more : List Symbol) (r : Reply) (s : State) :
    (s.withMore more r).input = s.input ++ more := rfl

theorem consume_withMore {n : Nat} {s : State} (hlen : n ≤ s.input.length) (more : List Symbol) (r : Reply) :
    consume n (s.withMore more r) = (consume n s).withMore more r := by
  simp only [consume, State.withMore, List.take_append_of_le_length hlen, List.drop_append_of_le_length hlen]

theorem nextWord_withMore {s : State} (hlen : 32 ≤ s.input.length) (more : List Symbol) (r : Reply) :
    nextWord (s.withMore more r) = nextWord s :=
  congrArg wordOfSymbols (List.take_append_of_le_length hlen)

theorem shiftSymbol_withMore {s : State} {x : Symbol} {rest : List Symbol} (hin : s.input = x :: rest)
    (more : List Symbol) (r : Reply) : shiftSymbol x (s.withMore more r) = (shiftSymbol x s).withMore more r := by
  have hlen : 1 ≤ s.input.length := by rw [hin]; exact Nat.le_add_left 1 rest.length
  unfold shiftSymbol
  rw [consume_withMore hlen]
  rfl

/-- A step with enough symbols is the same step with more of them (R120). -/
theorem automatonStep_withMore {s : State} (hfull : stepLength s.state ≤ s.input.length) (more : List Symbol)
    (r : Reply) :
    automatonStep (s.withMore more r) = ((automatonStep s).1, (automatonStep s).2.withMore more r) := by
  have hlen : s.input.length ≤ (s.withMore more r).input.length := by
    rw [withMore_input, List.length_append]; exact Nat.le_add_right _ _
  cases hs : s.state <;> rw [hs] at hfull
  case searchPreambleStart | searchPreambleEnd | searchSync =>
    obtain ⟨x, rest, hin⟩ := List.exists_cons_of_length_pos hfull
    have hin' : (s.withMore more r).input = x :: (rest ++ more) := congrArg (· ++ more) hin
    simp only [automatonStep, withMore_state, hs, stepSps_cons hin, stepSps_cons hin', stepSpe_cons hin,
      stepSpe_cons hin', stepSearchSync_cons hin, stepSearchSync_cons hin', shiftSymbol_withMore hin, withMore_acc,
      withMore_cfg]
    split <;> rfl
  case sync =>
    have hword : 32 ≤ s.input.length := hfull
    rw [automatonStep_sync hs hword, automatonStep_sync (s := s.withMore more r) hs (hword.trans hlen),
      nextWord_withMore hword, consume_withMore hword, BlindToMore.loseSync]
    split <;> rfl
  case synched =>
    have hword : 32 ≤ s.input.length := hfull
    rw [automatonStep_synched hs hword, automatonStep_synched (s := s.withMore more r) hs (hword.trans hlen),
      nextWord_withMore hword, consume_withMore hword, BlindToMore.synchedWord]

theorem StepsTo.withMore {s t : State} {n : Nat} (h : StepsTo s n t) (more : List Symbol) (r : Reply) :
    StepsTo (s.withMore more r) n (t.withMore more r) := by
  induction h with
  | none s => exact .none _
  | @more s t u n k hstep _ ih =>
    have hne : (Machine.automatonStep s).1 ≠ 0 := by rw [hstep]; exact Nat.succ_ne_zero n
    obtain ⟨_, hfull⟩ := automatonStep_count_of_ne_zero hne
    exact .more (by rw [automatonStep_withMore hfull, hstep]) ih

/-! ## Chunks -/

/-- No WORK leaves a presented symbol in the block (R51). -/
theorem FedBy.input_eq_nil {rest after : List Symbol} {chunks : List (List Symbol)} {s u : State}
    (h : FedBy rest s chunks after u) (hne : chunks ≠ []) : u.input = [] := by
  induction h with
  | done => exact absurd rfl hne
  | @feed rest chunk after chunks s t u n hexec _ hfed ih =>
    cases hfed with
    | done => cases hexec; rfl
    | feed => exact ih (List.cons_ne_nil _ _)

/-- A dutiful host, which starts from a rest too short for a step, brings the block where the chain over all its symbols
ends. -/
theorem exists_fedBy (chunks : List (List Symbol)) {rest : List Symbol} {s : State}
    (hrest : rest.length < stepLength s.state) :
    ∃ (u : State) (n : Nat) (t : State),
      FedBy rest s chunks t.input u ∧ StepsTo { s with input := rest ++ chunks.flatten } n t ∧
      t.input.length < stepLength t.state ∧
      { u with input := [], reply := .nothing } = { t with input := [], reply := .nothing } := by
  induction chunks generalizing rest s with
  | nil =>
    refine ⟨s, 0, { s with input := rest }, .done rest s, ?_, hrest, rfl⟩
    rw [List.flatten_nil, List.append_nil]
    exact .none _
  | cons chunk chunks ih =>
    obtain ⟨n, t, hchain, hstop⟩ := exists_stepsTo { s with input := rest ++ chunk }
    have hshort := (automatonStep_stops_iff t).mp hstop
    have hinput : t.input = (rest ++ chunk).drop n := hchain.takes.input_eq_drop
    obtain ⟨u, m, v, hfed, hlater, hend, hsame⟩ := ih (s := { t with input := [], reply := .count n }) hshort
    rw [hinput] at hfed
    have hall : StepsTo _ (n + m) v := (hchain.withMore chunks.flatten (.count n)).trans hlater
    have hreply := hall.withMore [] s.reply
    refine ⟨u, n + m, v.withMore [] s.reply, ?_, ?_, ?_, hsame⟩
    · rw [State.withMore, List.append_nil]
      exact .feed (exec_work_of_stepsTo hchain hshort) rfl hfed
    · simpa only [State.withMore, List.append_nil, List.flatten_cons, List.append_assoc] using hreply
    · rw [State.withMore, List.append_nil]
      exact hend

/-- Settles O7: both hosts end where the chain over the whole sequence ends. -/
theorem chunkingDoesNotMatter : Obligations.ChunkingDoesNotMatter := by
  intro chunks s hne
  have hnothing : ([] : List Symbol).length < stepLength s.state := stepLength_pos s.state
  obtain ⟨u, n, t, hfed, hchain, hshort, hsame⟩ := exists_fedBy chunks hnothing
  refine ⟨t.input, u, _, n, hfed, exec_work_of_stepsTo hchain hshort, rfl, hchain.takes.input_eq_drop, ?_⟩
  rw [← hsame, ← hfed.input_eq_nil hne]

end Sys2Proof.Machine
end

section
/-! Runs of the automaton over several words and symbols (family 41_sync_automaton; R112, R118, R121, R122). -/

namespace Sys2Proof.Machine

/-- A chain that consumes the whole buffer is WORK's. -/
theorem exec_work_of_stepsTo_all {buf : List Symbol} {s t : State} {n : Nat} (h : StepsTo { s with input := buf } n t)
    (hn : n = buf.length) : exec (.work buf) s = .next { t with input := [], reply := .count n } := by
  refine exec_work_of_stepsTo h ?_
  rw [h.takes.input_eq_drop, hn, List.drop_length]
  exact stepLength_pos t.state

theorem StepsTo.keepsSetup {s t : State} {n : Nat} (h : StepsTo s n t) : s.KeepsSetup t :=
  h.keeps (fun _ ht => ht.trans (State.KeepsSetup.automatonStep _)) (State.KeepsSetup.refl s)

/-! ## A batch (R121) -/

/-- t is reached from s, which is at the start of a batch, by n words that were counted. -/
structure AfterWords (s : State) (n : Nat) (t : State) : Prop where
  steps : StepsTo s (32 * n) t
  state_eq : t.state = if n = 16 then .sync else .synched
  count_eq : t.wordCount = n
  acc_eq : t.acc = s.acc

/-- Inside the batch the next step takes the next word of the input. -/
theorem AfterWords.automatonStep {s t : State} {n : Nat} (h : AfterWords s n t) (hn : n < 16)
    (hlen : 32 * (n + 1) ≤ s.input.length) :
    automatonStep t = (32, synchedWord (wordAt s.input n) (consume 32 t)) := by
  have hinput := h.steps.takes.input_eq_drop
  have hword : nextWord t = wordAt s.input n := by rw [nextWord_eq, hinput, wordAt]
  rw [← hword, automatonStep_synched (h.state_eq.trans (if_neg hn.ne))]
  rw [hinput, List.length_drop]
  omega

theorem AfterWords.count {s t : State} {n : Nat} (h : AfterWords s n t) (hn : n < 16)
    (hlen : 32 * (n + 1) ≤ s.input.length) (hok : Codec.uncorrectable (wordAt s.input n) = false) :
    AfterWords s (n + 1) (synchedWord (wordAt s.input n) (consume 32 t)) where
  steps := h.steps.concat (h.automatonStep hn hlen)
  state_eq := by
    rw [synchedWord_state, hok, consume_wordCount, h.count_eq, consume_state, h.state_eq, if_neg hn.ne]
    rfl
  count_eq := by rw [synchedWord_wordCount, hok, consume_wordCount, h.count_eq]; rfl
  acc_eq := by rw [synchedWord_acc, hok]; exact h.acc_eq

theorem exists_afterWords {s : State} (hs : s.state = .synched) (hcount : s.wordCount = 0) {n : Nat} (hn : n ≤ 16)
    (hlen : 32 * n ≤ s.input.length) (hok : ∀ k, k < n → Codec.uncorrectable (wordAt s.input k) = false) :
    ∃ t, AfterWords s n t := by
  induction n with
  | zero => exact ⟨s, .none s, hs, hcount, rfl⟩
  | succ n ih =>
    obtain ⟨t, ht⟩ := ih (Nat.le_of_succ_le hn) (by omega) fun k hk => hok k (Nat.lt_succ_of_lt hk)
    exact ⟨_, ht.count hn hlen (hok n (Nat.lt_succ_self n))⟩

/-- Settles O48: correctable words are counted one by one, and the word after them is counted too or loses sync. -/
theorem batchBoundary : Obligations.BatchBoundary := by
  intro buf s hs hcount
  refine ⟨fun n hn hlen hok => ?_, fun k hk hlen hok hlost => ?_⟩
  · obtain ⟨t, ht⟩ := exists_afterWords (s := { s with input := buf }) hs hcount hn hlen.ge hok
    exact ⟨_, exec_work_of_stepsTo_all ht.steps hlen.symm, rfl, ht.state_eq, ht.count_eq, ht.acc_eq⟩
  · have hle : 32 * k ≤ buf.length := by omega
    obtain ⟨t, ht⟩ := exists_afterWords (s := { s with input := buf }) hs hcount hk.le hle hok
    have hcfg : t.cfg = s.cfg := ht.steps.keepsSetup.cfg_eq
    have hchain := ht.steps.concat (ht.automatonStep hk hlen.ge)
    refine ⟨_, exec_work_of_stepsTo_all hchain hlen.symm, rfl, ?_, ?_, ?_⟩
    · dsimp only
      rw [synchedWord_state, hlost, if_pos rfl, consume_cfg, hcfg]
    · dsimp only
      rw [synchedWord_wordCount, hlost, if_pos rfl, consume_wordCount, ht.count_eq]
    · dsimp only
      rw [synchedWord_acc, hlost, if_pos rfl]

/-! ## Acquisition (R112) -/

theorem accAfter_append (acc : Word) (l m : List Symbol) : accAfter acc (l ++ m) = accAfter (accAfter acc l) m :=
  List.foldl_append

/-- The symbols of a word put it into the accumulator. -/
theorem accAfter_symbolsOfWord (acc w : Word) : accAfter acc (symbolsOfWord w) = w := by
  apply BitVec.eq_of_getLsbD_eq
  intro i hi
  have hbit := getLsbD_accAfter_of_length acc (syms := symbolsOfWord w) rfl (j := 31 - i) (by omega)
  rw [show 31 - (31 - i) = i by omega] at hbit
  rw [hbit]
  simp [symbolsOfWord, List.getD_eq_getElem?_getD, show 31 - i < 32 by omega, show 31 - (31 - i) = i by omega]

/-- t is reached from s in `SearchSync` by n symbols, at none of which the accumulator matched. -/
structure Searched (s : State) (n : Nat) (t : State) : Prop where
  steps : StepsTo s n t
  state_eq : t.state = .searchSync
  acc_eq : t.acc = accAfter s.acc (s.input.take n)
  msg_eq : t.msg = s.msg
  out_eq : t.out = s.out
  ev_eq : t.ev = s.ev

/-- Symbol n is the next one, and completes the window of n + 1 symbols. -/
theorem StepsTo.next_symbol {s t : State} {n : Nat} (h : StepsTo s n t) (hacc : t.acc = accAfter s.acc (s.input.take n))
    (hn : n < s.input.length) :
    t.input = s.input[n] :: s.input.drop (n + 1) ∧
    shiftBit t.acc (storedBit s.input[n]) = accAfter s.acc (s.input.take (n + 1)) := by
  rw [h.takes.input_eq_drop, List.drop_eq_getElem_cons hn, ← List.take_concat_get' s.input n hn, accAfter_concat, hacc]
  exact ⟨rfl, rfl⟩

theorem Searched.automatonStep {s t : State} {n : Nat} (h : Searched s n t) (hn : n < s.input.length) :
    automatonStep t =
      (1, if syncMatches (accAfter s.acc (s.input.take (n + 1))) then enterSynched (shiftSymbol s.input[n] t)
        else shiftSymbol s.input[n] t) := by
  obtain ⟨hin, hacc⟩ := h.steps.next_symbol h.acc_eq hn
  rw [automatonStep_searchSync h.state_eq hin, hacc]

/-- No match: the search goes on. -/
theorem Searched.miss {s t : State} {n : Nat} (h : Searched s n t) (hn : n < s.input.length)
    (hmiss : 2 < Codec.hamming (accAfter s.acc (s.input.take (n + 1))) 0x7CD215D8) :
    Searched s (n + 1) (shiftSymbol s.input[n] t) := by
  obtain ⟨_, hacc⟩ := h.steps.next_symbol h.acc_eq hn
  have hstep := h.automatonStep hn
  rw [if_neg (mt (syncMatches_iff _).mp (Nat.not_le.mpr hmiss))] at hstep
  exact ⟨h.steps.concat hstep, h.state_eq, hacc, h.msg_eq, h.out_eq, h.ev_eq⟩

theorem exists_searched {s : State} (hs : s.state = .searchSync) {n : Nat} (hn : n ≤ s.input.length)
    (hmiss : ∀ k, 0 < k → k ≤ n → 2 < Codec.hamming (accAfter s.acc (s.input.take k)) 0x7CD215D8) :
    ∃ t, Searched s n t := by
  induction n with
  | zero => exact ⟨s, .none s, hs, rfl, rfl, rfl, rfl⟩
  | succ n ih =>
    obtain ⟨t, ht⟩ := ih (Nat.le_of_succ_le hn) fun k hpos hk => hmiss k hpos (Nat.le_succ_of_le hk)
    exact ⟨_, ht.miss hn (hmiss (n + 1) (Nat.succ_pos n) (Nat.le_refl _))⟩

/-- The first window that is the SYNC word enters `Synched` at word index 0 (R112, R115). -/
theorem exists_acquisition {s : State} {noise more : List Symbol} (hs : s.state = .searchSync)
    (hin : s.input = noise ++ symbolsOfWord 0x7CD215D8 ++ more)
    (hmiss : ∀ k : Nat, 0 < k → k < noise.length + 32 →
      2 < Codec.hamming (accAfter s.acc ((noise ++ symbolsOfWord 0x7CD215D8).take k)) 0x7CD215D8) :
    ∃ t, StepsTo s (noise.length + 32) t ∧ t.state = .synched ∧ t.wordCount = 0 ∧ t.acc = 0x7CD215D8 ∧
      t.msg = s.msg ∧ t.out = s.out ∧ t.ev = s.ev := by
  have hlen : (noise ++ symbolsOfWord 0x7CD215D8).length = noise.length + 32 := List.length_append
  have hwindow {k : Nat} (hk : k ≤ noise.length + 32) :
      s.input.take k = (noise ++ symbolsOfWord 0x7CD215D8).take k := by
    rw [hin, List.take_append_of_le_length (hk.trans hlen.ge)]
  have hn : noise.length + 31 < s.input.length := by
    rw [hin, List.length_append, hlen]; omega
  obtain ⟨t, ht⟩ := exists_searched hs hn.le fun k hpos hk => by
    rw [hwindow (by omega)]; exact hmiss k hpos (by omega)
  obtain ⟨_, hacc⟩ := ht.steps.next_symbol ht.acc_eq hn
  have hsync : accAfter s.acc (s.input.take (noise.length + 31 + 1)) = 0x7CD215D8 := by
    rw [hwindow (Nat.le_refl _), List.take_of_length_le hlen.le, accAfter_append, accAfter_symbolsOfWord]
  have hmatch : syncMatches 0x7CD215D8 = true := by decide
  have hstep := ht.automatonStep hn
  rw [hsync, if_pos hmatch] at hstep
  exact ⟨_, ht.steps.concat hstep, rfl, rfl, hacc.trans hsync, ht.msg_eq, ht.out_eq, ht.ev_eq⟩

/-- Settles O49: the search ends at that symbol, and what is left is no word. -/
theorem acquisitionAtTheLastSyncSymbol : Obligations.AcquisitionAtTheLastSyncSymbol := by
  intro noise more s hs hmore hmiss
  obtain ⟨t, hchain, hstate, hkept⟩ :=
    exists_acquisition (s := { s with input := noise ++ symbolsOfWord 0x7CD215D8 ++ more }) hs rfl hmiss
  refine ⟨_, exec_work_of_stepsTo hchain ?_, rfl, hstate, hkept⟩
  have hlen : (noise ++ symbolsOfWord 0x7CD215D8).length = noise.length + 32 := List.length_append
  rw [hchain.takes.input_eq_drop, ← hlen, List.drop_left, hstate]
  exact hmore

end Sys2Proof.Machine
end

section
/-! Preamble-search mode, and what each mode reaches (family 41_sync_automaton; R118, R122). -/

namespace Sys2Proof.Machine

/-- One more step, by the count that its control state reads. -/
theorem StepsTo.step {s t : State} {n : Nat} (h : StepsTo s n t) (hfull : stepLength t.state ≤ t.input.length) :
    StepsTo s (n + stepLength t.state) (automatonStep t).2 := by
  obtain ⟨k, hk⟩ := Nat.exists_eq_add_of_le' (stepLength_pos t.state)
  have hcount := automatonStep_count hfull
  rw [hk] at hcount ⊢
  exact h.concat (Prod.ext hcount rfl)

/-! ## Leaving the preamble, and the word read in `Sync` -/

/-- The symbol that breaks the alternation leads to `Sync` (R109). -/
theorem exists_sync_of_break {s : State} {x : Symbol} {rest : List Symbol} (hs : s.state = .searchPreambleEnd)
    (hin : s.input = x :: rest)
    (hbreak : preambleMatches s.cfg.preambleLen (shiftBit s.acc (storedBit x)) = false) :
    ∃ t, StepsTo s 1 t ∧ t.state = .sync ∧ t.input = rest ∧ t.ev = s.ev := by
  have hstep := automatonStep_searchPreambleEnd hs hin
  rw [if_neg (Bool.eq_false_iff.mp hbreak)] at hstep
  have hchain := (StepsTo.none s).concat hstep
  exact ⟨_, hchain, rfl, by rw [hchain.takes.input_eq_drop, hin]; rfl, rfl⟩

/-- A word that is no SYNC loses sync (R113). -/
theorem stepsTo_of_miss {s : State} (hs : s.state = .sync) (hlen : 32 ≤ s.input.length)
    (hmiss : 2 < Codec.hamming (nextWord s) 0x7CD215D8) :
    StepsTo s 32 (loseSync { kind := .syncMiss, info := .word (nextWord s) } (consume 32 s)) := by
  have hstep := automatonStep_sync hs hlen
  rw [if_neg (mt (syncMatches_iff _).mp (Nat.not_le.mpr hmiss))] at hstep
  exact (StepsTo.none s).concat hstep

/-! ## A preamble, then the SYNC word (R118) -/

/-- The SYNC word's other 31 bits and the bit after it are no SYNC word. -/
theorem hamming_misaligned (x : Symbol) :
    Codec.hamming (wordOfSymbols ((symbolsOfWord 0x7CD215D8).tail ++ [x])) 0x7CD215D8 = if x then 16 else 17 := by
  cases x <;> decide +kernel

/-- Settles O50: the SYNC word's first symbol leads to `Sync`, and the 32 after it are a miss. -/
theorem preambleModeMissesAStandardSync : Obligations.PreambleModeMissesAStandardSync := by
  intro s x hs hacc hlen hinitial
  have hbreak : preambleMatches s.cfg.preambleLen (shiftBit s.acc (storedBit true)) = false := by
    rw [hacc, hlen]; decide
  obtain ⟨t, hfirst, hstate, hrest, hev⟩ := exists_sync_of_break
    (s := { s with input := symbolsOfWord 0x7CD215D8 ++ [x] }) (rest := (symbolsOfWord 0x7CD215D8).tail ++ [x])
    hs rfl hbreak
  have hword : nextWord t = wordOfSymbols ((symbolsOfWord 0x7CD215D8).tail ++ [x]) := by
    rw [nextWord_eq, hrest]; rfl
  have hdist : Codec.hamming (nextWord t) 0x7CD215D8 = if x then 16 else 17 := by rw [hword, hamming_misaligned]
  have hmiss : 2 < Codec.hamming (nextWord t) 0x7CD215D8 := by rw [hdist]; cases x <;> decide
  have hchain := hfirst.trans (stepsTo_of_miss hstate (by rw [hrest]; rfl) hmiss)
  have hcfg : t.cfg = s.cfg := hfirst.keepsSetup.cfg_eq
  refine ⟨_, nextWord t, exec_work_of_stepsTo_all hchain rfl, rfl, ?_, loseSync_acc _ _, ?_, hdist⟩
  · rw [loseSync_state, consume_cfg, hcfg, hinitial]
  · rw [loseSync_ev, consume_ev, hev]

/-! ## Reachable control states (R122) -/

theorem exec_reset_of_legal {c : Construction} (s : State)
    (hstate : c.initialState = .searchSync ∨ c.initialState = .searchPreambleStart) (hmin : 2 ≤ c.preambleLen)
    (hmax : c.preambleLen ≤ 32) : exec (.reset c) s = .next (construct c s.pending) := by
  change execReset c s = _
  rw [execReset, if_pos ((legalInitialState_iff _).mpr hstate), if_pos ((legalPreambleLen_iff _).mpr ⟨hmin, hmax⟩)]

/-- A batch of sixteen zero words, which are valid. -/
theorem uncorrectable_wordAt_replicate {k : Nat} (hk : k < 16) :
    Codec.uncorrectable (wordAt (List.replicate 512 true) k) = false := by
  have hword : wordAt (List.replicate 512 true) k = 0 := by
    rw [wordAt, List.drop_replicate, List.take_replicate, Nat.min_eq_left (by omega)]
    decide
  rw [hword]
  exact Codec.uncorrectable_of_valid (by decide +kernel)

/-- In direct-sync mode a SYNC word leads to `Synched`. -/
theorem exists_synched_of_directSync {s : State} {more : List Symbol} (hs : s.state = .searchSync) (hacc : s.acc = 0)
    (hin : s.input = symbolsOfWord 0x7CD215D8 ++ more) :
    ∃ t, StepsTo s 32 t ∧ t.state = .synched ∧ t.wordCount = 0 := by
  have hmiss : ∀ k, k < 0 + 32 → 0 < k →
      2 < Codec.hamming (accAfter 0 (([] ++ symbolsOfWord 0x7CD215D8).take k)) 0x7CD215D8 := by decide +kernel
  obtain ⟨t, hchain, hstate, hcount, _⟩ :=
    exists_acquisition (noise := []) hs hin fun k hpos hk => hacc ▸ hmiss k hk hpos
  exact ⟨t, hchain, hstate, hcount⟩

/-- A batch after it leads to `Sync`. -/
theorem exists_sync_of_directSync {s : State} (hs : s.state = .searchSync) (hacc : s.acc = 0)
    (hin : s.input = symbolsOfWord 0x7CD215D8 ++ List.replicate 512 true) :
    ∃ t, StepsTo s 544 t ∧ t.state = .sync := by
  obtain ⟨t, hchain, hstate, hcount⟩ := exists_synched_of_directSync hs hacc hin
  have hrest : t.input = List.replicate 512 true := by rw [hchain.takes.input_eq_drop, hin]; rfl
  obtain ⟨u, hu⟩ := exists_afterWords hstate hcount (Nat.le_refl 16) (by rw [hrest, List.length_replicate])
    fun k hk => hrest ▸ uncorrectable_wordAt_replicate hk
  exact ⟨u, hchain.trans hu.steps, hu.state_eq⟩

/-! ## The preamble 1010…10

Some symbol of it completes L alternating bits, and from there on the alternation is followed to its end. -/

/-- An alternation continued alternates. -/
theorem preambleMatches_shiftBit {L : Nat} (hL : L ≤ 32) {a : Word} (h : preambleMatches L a = true) :
    preambleMatches L (shiftBit a (!a.getLsbD 0)) = true := by
  rw [preambleMatches_iff_alternates hL] at h ⊢
  intro i hi
  rw [getLsbD_shiftBit _ _ (by omega), getLsbD_shiftBit _ _ (by omega), if_neg (Nat.succ_ne_zero i)]
  cases i with
  | zero => simp
  | succ i => exact h i (by omega)

/-- Two equal bits at the low end are no alternation. -/
theorem preambleMatches_eq_false {L : Nat} (hmin : 2 ≤ L) (hmax : L ≤ 32) {a : Word}
    (h : a.getLsbD 0 = a.getLsbD 1) : preambleMatches L a = false :=
  Bool.eq_false_iff.mpr fun hmatch => (preambleMatches_iff_alternates hmax a).mp hmatch 0 hmin h

/-- Each symbol of the preamble inverts the last stored bit. -/
theorem storedBit_preamble {n : Nat} (hn : n < 32) :
    storedBit ((symbolsOfWord 0xAAAAAAAA).getD n false) =
      !(accAfter 0 ((symbolsOfWord 0xAAAAAAAA).take n)).getLsbD 0 := by
  decide +revert

/-- t is reached from s in `SearchPreambleStart` by n symbols; the accumulator tells whether they were a preamble. -/
structure Alternated (s : State) (n : Nat) (t : State) : Prop where
  steps : StepsTo s n t
  acc_eq : t.acc = accAfter s.acc (s.input.take n)
  state_eq : t.state = if preambleMatches s.cfg.preambleLen t.acc then .searchPreambleEnd else .searchPreambleStart

/-- A symbol that inverts the last stored bit. -/
theorem Alternated.next {s t : State} {n : Nat} (h : Alternated s n t) (hmax : s.cfg.preambleLen ≤ 32)
    (hn : n < s.input.length) (hflip : storedBit s.input[n] = !t.acc.getLsbD 0) :
    Alternated s (n + 1) (automatonStep t).2 := by
  obtain ⟨hin, hnext⟩ := h.steps.next_symbol h.acc_eq hn
  have hcfg : t.cfg = s.cfg := h.steps.keepsSetup.cfg_eq
  have hone : stepLength t.state = 1 := by rw [h.state_eq]; split <;> rfl
  have hfull : stepLength t.state ≤ t.input.length := by rw [hone, hin]; exact Nat.le_add_left 1 _
  have hacc := automatonStep_acc hone hin
  have hsteps := h.steps.step hfull
  rw [hone] at hsteps
  obtain ⟨hsps, hspe, _⟩ := transitionRelation t (by rw [automatonStep_count hfull, hone]; exact one_ne_zero)
  refine ⟨hsteps, hacc.trans hnext, ?_⟩
  cases hmatch : preambleMatches s.cfg.preambleLen t.acc with
  | false =>
    rw [hsps (by rw [h.state_eq, hmatch]; rfl), hcfg]
  | true =>
    have hstill : preambleMatches s.cfg.preambleLen (automatonStep t).2.acc = true := by
      rw [hacc, hflip]; exact preambleMatches_shiftBit hmax hmatch
    rw [hspe (by rw [h.state_eq, hmatch]; rfl), hcfg, if_pos hstill, if_pos hstill]

theorem exists_alternated {s : State} {more : List Symbol} (hs : s.state = .searchPreambleStart) (hacc : s.acc = 0)
    (hmin : 2 ≤ s.cfg.preambleLen) (hmax : s.cfg.preambleLen ≤ 32)
    (hin : s.input = symbolsOfWord 0xAAAAAAAA ++ more) {n : Nat} (hn : n ≤ 32) : ∃ t, Alternated s n t := by
  induction n with
  | zero =>
    refine ⟨s, .none s, rfl, ?_⟩
    rw [preambleMatches_eq_false hmin hmax (by rw [hacc]; rfl), hs]
    rfl
  | succ n ih =>
    obtain ⟨t, ht⟩ := ih (Nat.le_of_succ_le hn)
    have hlt : n < (symbolsOfWord 0xAAAAAAAA).length := hn
    have hsymbol : n < s.input.length := by rw [hin, List.length_append]; exact Nat.lt_add_right _ hlt
    refine ⟨_, ht.next hmax hsymbol ?_⟩
    have hget : s.input[n] = (symbolsOfWord 0xAAAAAAAA).getD n false := by
      rw [List.getElem_of_eq hin, List.getElem_append_left hlt, List.getD_eq_getElem]
    rw [hget, storedBit_preamble hn, ht.acc_eq, hacc, hin, List.take_append_of_le_length (Nat.le_of_succ_le hn)]

/-- The whole preamble 1010…10 leads to `SearchPreambleEnd`, for every length that is legal. -/
theorem exists_preambleEnd {s : State} {more : List Symbol} (hs : s.state = .searchPreambleStart) (hacc : s.acc = 0)
    (hmin : 2 ≤ s.cfg.preambleLen) (hmax : s.cfg.preambleLen ≤ 32)
    (hin : s.input = symbolsOfWord 0xAAAAAAAA ++ more) :
    ∃ t, StepsTo s 32 t ∧ t.state = .searchPreambleEnd ∧ t.acc = 0xAAAAAAAA ∧ t.input = more := by
  obtain ⟨t, hchain, htacc, hstate⟩ := exists_alternated hs hacc hmin hmax hin (Nat.le_refl 32)
  have hlen : (symbolsOfWord 0xAAAAAAAA).length = 32 := rfl
  have hpreamble : t.acc = 0xAAAAAAAA := by
    rw [htacc, hin, List.take_left' hlen, accAfter_symbolsOfWord]
  have hmatch : preambleMatches s.cfg.preambleLen 0xAAAAAAAA = true :=
    (preambleMatches_iff_parity hmax _).mpr (.inl fun i hi => (getLsbD_preamble (hi.trans_le hmax)).1)
  rw [hpreamble, if_pos hmatch] at hstate
  exact ⟨t, hchain, hstate, hpreamble, by rw [hchain.takes.input_eq_drop, hin, List.drop_left' hlen]⟩

/-- A second 0 ends it and leads to `Sync`. -/
theorem exists_sync_of_preamble {s : State} {more : List Symbol} (hs : s.state = .searchPreambleStart)
    (hacc : s.acc = 0) (hmin : 2 ≤ s.cfg.preambleLen) (hmax : s.cfg.preambleLen ≤ 32)
    (hin : s.input = symbolsOfWord 0xAAAAAAAA ++ true :: more) :
    ∃ t, StepsTo s 33 t ∧ t.state = .sync ∧ t.input = more := by
  obtain ⟨t, hchain, hstate, htacc, hrest⟩ := exists_preambleEnd hs hacc hmin hmax hin
  have hcfg : t.cfg = s.cfg := hchain.keepsSetup.cfg_eq
  obtain ⟨u, hlast, hsync, hmore, _⟩ := exists_sync_of_break hstate hrest
    (by rw [hcfg, htacc]; exact preambleMatches_eq_false hmin hmax (by decide))
  exact ⟨u, hchain.trans hlast, hsync, hmore⟩

/-- A SYNC word there leads to `Synched`. -/
theorem exists_synched_of_preamble {s : State} (hs : s.state = .searchPreambleStart)
    (hacc : s.acc = 0) (hmin : 2 ≤ s.cfg.preambleLen) (hmax : s.cfg.preambleLen ≤ 32)
    (hin : s.input = symbolsOfWord 0xAAAAAAAA ++ true :: symbolsOfWord 0x7CD215D8) :
    ∃ t, StepsTo s 65 t ∧ t.state = .synched := by
  obtain ⟨t, hchain, hstate, hrest⟩ := exists_sync_of_preamble hs hacc hmin hmax hin
  have hmatch : syncMatches (nextWord t) = true := by
    rw [nextWord_eq, hrest]; decide +kernel
  have hstep := automatonStep_sync hstate (by rw [hrest]; rfl)
  rw [if_pos hmatch] at hstep
  exact ⟨_, hchain.concat hstep, rfl⟩

/-! ## The two modes -/

/-- WORK ends in the control state in which a chain over its buffer ends. -/
theorem exists_stepsTo_of_work {buf : List Symbol} {s u : State} (hwork : exec (.work buf) s = .next u) :
    ∃ n t, StepsTo { s with input := buf } n t ∧ u.state = t.state := by
  obtain ⟨n, t, hchain, _, hexec⟩ := workRunsStepsUntilOneNeedsInput buf s
  rw [hwork] at hexec
  cases hexec
  exact ⟨n, t, hchain, rfl⟩

/-- In preamble-search mode no step enters `SearchSync` (R108 to R117; log entry 17). -/
theorem automatonStep_ne_searchSync {s : State} (hmode : s.cfg.initialState = .searchPreambleStart)
    (hs : s.state ≠ .searchSync) : (automatonStep s).2.state ≠ .searchSync := by
  intro henters
  obtain ⟨hsps, hspe, _, hsync, hsynched⟩ := transitionRelation s (ne_zero_of_state_ne (henters ▸ hs.symm))
  rw [hmode] at hsync hsynched
  cases hstate : s.state with
  | searchPreambleStart => rw [hsps hstate] at henters; split at henters <;> cases henters
  | searchPreambleEnd => rw [hspe hstate] at henters; split at henters <;> cases henters
  | searchSync => exact hs hstate
  | sync => rw [hsync hstate] at henters; split at henters <;> cases henters
  | synched =>
    rw [hsynched hstate] at henters
    split at henters
    · cases henters
    · split at henters <;> cases henters

theorem StepsTo.ne_searchSync {s t : State} {n : Nat} (h : StepsTo s n t)
    (hmode : s.cfg.initialState = .searchPreambleStart) (hs : s.state ≠ .searchSync) : t.state ≠ .searchSync := by
  have hkept := h.keeps (P := fun t => t.cfg.initialState = .searchPreambleStart ∧ t.state ≠ .searchSync)
    (fun t ⟨hm, hne⟩ => ⟨by rw [(State.KeepsSetup.automatonStep t).cfg_eq, hm], automatonStep_ne_searchSync hm hne⟩)
    ⟨hmode, hs⟩
  obtain ⟨_, hne⟩ := hkept
  exact hne

/-- In direct-sync mode, R122's three. -/
theorem reachable_of_directSync {s : State} (hinv : s.Inv) (hmode : s.cfg.initialState = .searchSync)
    (hs : s.state = .searchSync) (hacc : s.acc = 0) (x : ControlState) :
    (∃ (buf : List Symbol) (u : State), exec (.work buf) s = .next u ∧ u.state = x) ↔
      x = .searchSync ∨ x = .synched ∨ x = .sync := by
  constructor
  · rintro ⟨buf, u, hwork, rfl⟩
    obtain ⟨n, t, hchain, hstate⟩ := exists_stepsTo_of_work hwork
    have hend : t.InvDuringWork := hchain.keeps (fun _ h => h.automatonStep) (hinv.duringWork buf)
    have hcfg : t.cfg = s.cfg := hchain.keepsSetup.cfg_eq
    obtain ⟨hsps, hspe⟩ := hend.direct_sync (hcfg ▸ hmode)
    rw [hstate]
    cases ht : t.state with
    | searchPreambleStart => exact absurd ht hsps
    | searchPreambleEnd => exact absurd ht hspe
    | sync => exact .inr (.inr rfl)
    | searchSync => exact .inl rfl
    | synched => exact .inr (.inl rfl)
  · rintro (rfl | rfl | rfl)
    · exact ⟨[], _, exec_work_of_stepsTo_all (.none _) rfl, hs⟩
    · obtain ⟨t, hchain, hstate, _⟩ := exists_synched_of_directSync
        (s := { s with input := symbolsOfWord 0x7CD215D8 ++ [] }) hs hacc rfl
      exact ⟨_, _, exec_work_of_stepsTo_all hchain rfl, hstate⟩
    · obtain ⟨t, hchain, hstate⟩ := exists_sync_of_directSync
        (s := { s with input := symbolsOfWord 0x7CD215D8 ++ List.replicate 512 true }) hs hacc rfl
      exact ⟨_, _, exec_work_of_stepsTo_all hchain (by rw [List.length_append, List.length_replicate]; rfl), hstate⟩

/-- In preamble-search mode, the four others than `SearchSync`. -/
theorem reachable_of_preambleMode {s : State} (hmode : s.cfg.initialState = .searchPreambleStart)
    (hs : s.state = .searchPreambleStart) (hacc : s.acc = 0) (hmin : 2 ≤ s.cfg.preambleLen)
    (hmax : s.cfg.preambleLen ≤ 32) (x : ControlState) :
    (∃ (buf : List Symbol) (u : State), exec (.work buf) s = .next u ∧ u.state = x) ↔
      x = .searchPreambleStart ∨ x = .searchPreambleEnd ∨ x = .sync ∨ x = .synched := by
  constructor
  · rintro ⟨buf, u, hwork, rfl⟩
    obtain ⟨n, t, hchain, hstate⟩ := exists_stepsTo_of_work hwork
    have hne := hchain.ne_searchSync hmode (by rw [hs]; decide)
    rw [hstate]
    cases ht : t.state with
    | searchPreambleStart => exact .inl rfl
    | searchPreambleEnd => exact .inr (.inl rfl)
    | sync => exact .inr (.inr (.inl rfl))
    | searchSync => exact absurd ht hne
    | synched => exact .inr (.inr (.inr rfl))
  · rintro (rfl | rfl | rfl | rfl)
    · exact ⟨[], _, exec_work_of_stepsTo_all (.none _) rfl, hs⟩
    · obtain ⟨t, hchain, hstate, _⟩ := exists_preambleEnd
        (s := { s with input := symbolsOfWord 0xAAAAAAAA ++ [] }) hs hacc hmin hmax rfl
      exact ⟨_, _, exec_work_of_stepsTo_all hchain rfl, hstate⟩
    · obtain ⟨t, hchain, hstate, _⟩ := exists_sync_of_preamble
        (s := { s with input := symbolsOfWord 0xAAAAAAAA ++ true :: [] }) hs hacc hmin hmax rfl
      exact ⟨_, _, exec_work_of_stepsTo_all hchain rfl, hstate⟩
    · obtain ⟨t, hchain, hstate⟩ := exists_synched_of_preamble
        (s := { s with input := symbolsOfWord 0xAAAAAAAA ++ true :: symbolsOfWord 0x7CD215D8 }) hs hacc hmin hmax rfl
      exact ⟨_, _, exec_work_of_stepsTo_all hchain rfl, hstate⟩

/-- Settles O54: the constructed state is in its initial state with the accumulator clear. -/
theorem reachableControlStates : Obligations.ReachableControlStates := by
  intro c s hmin hmax
  have hlen := (legalPreambleLen_iff c.preambleLen).mpr ⟨hmin, hmax⟩
  refine ⟨fun hmode => ?_, fun hmode => ?_⟩
  · have hinv := State.Inv.construct ((legalInitialState_iff _).mpr (.inl hmode)) hlen s.pending
    exact ⟨_, exec_reset_of_legal s (.inl hmode) hmin hmax, reachable_of_directSync hinv hmode hmode rfl⟩
  · exact ⟨_, exec_reset_of_legal s (.inr hmode) hmin hmax, reachable_of_preambleMode hmode hmode rfl hmin hmax⟩

end Sys2Proof.Machine
end

section
/-! The text decoder (family 42_message_assembler; R131, R132). What it has read of a bit stream stands in the completed
characters and, for the last seven bits, in the register; each bit fed keeps this. -/

namespace Sys2Proof.Machine

/-- The register shifts towards bit 0 and takes the new bit at the high end. -/
theorem feedTextBit_treg_getLsbD (m : Message) (b : Bool) {j : Nat} (hj : j < 7) :
    (feedTextBit m b).treg.getLsbD j = if j = 6 then b else m.treg.getLsbD (j + 1) := by
  have htreg : (feedTextBit m b).treg = (m.treg >>> 1) ||| ((if b then 1#7 else 0#7) <<< 6) := by
    rw [feedTextBit, apply_ite Message.treg, ite_self]
  rw [htreg]
  by_cases hlast : j = 6
  · subst hlast; cases b <;> simp
  · have hbelow : j < 6 := by omega
    simp [hlast, hbelow, Nat.add_comm]

/-- Without a seventh bit, no character. -/
theorem feedTextBit_text_of_ne {m : Message} (b : Bool) (h : m.tcnt ≠ 6) : (feedTextBit m b).text = m.text := by
  rw [feedTextBit, if_neg (c := m.tcnt + 1 = Config.charBits) (mt Nat.succ.inj h)]

/-- The seventh bit completes the character that the register then holds. -/
theorem feedTextBit_text_of_eq {m : Message} (b : Bool) (h : m.tcnt = 6) :
    (feedTextBit m b).text = m.text ++ [(feedTextBit m b).treg] := by
  rw [feedTextBit, if_pos (c := m.tcnt + 1 = Config.charBits) (congrArg Nat.succ h)]

/-- Since its text was `old`, the decoder has read the first 7 * chars.length + m.tcnt bits of the stream: every seven are
a character of `chars`, and the register holds the last seven, or as many as there are, the most recent one highest. -/
structure Message.HasRead (m : Message) (stream : Nat → Bool) (old chars : List CharCode) : Prop where
  text_eq : m.text = old ++ chars
  tcnt_le : m.tcnt ≤ 6
  char_bit : ∀ q b, q < chars.length → b < 7 → (chars.getD q 0).getLsbD b = stream (7 * q + b)
  treg_bit : ∀ b, b < 7 → 7 ≤ 7 * chars.length + m.tcnt + b →
    m.treg.getLsbD b = stream (7 * chars.length + m.tcnt + b - 7)

namespace Message.HasRead

variable {m : Message} {stream : Nat → Bool} {old chars : List CharCode}

/-- The held bits are the beginning of the payload's stream. -/
theorem textStream_start (h : m.tcnt ≤ 6) (p : Payload) : m.HasRead (textStream m p) m.text [] where
  text_eq := (List.append_nil _).symm
  tcnt_le := h
  char_bit _ _ hq _ := absurd hq (Nat.not_lt_zero _)
  treg_bit b hb hheld := by
    rw [List.length_nil] at hheld ⊢
    have hindex : 7 - m.tcnt + (7 * 0 + m.tcnt + b - 7) = b := by omega
    rw [textStream, if_pos (by omega), hindex]

/-- The stream's next bit shifts into the register, which is then one bit further on. -/
theorem feedTextBit_treg (h : m.HasRead stream old chars) (b : Nat) (hb : b < 7)
    (hheld : 7 ≤ 7 * chars.length + m.tcnt + 1 + b) :
    (feedTextBit m (stream (7 * chars.length + m.tcnt))).treg.getLsbD b =
      stream (7 * chars.length + m.tcnt + 1 + b - 7) := by
  rw [feedTextBit_treg_getLsbD m _ hb]
  split
  next hlast => subst hlast; rfl
  next hlow =>
    rw [h.treg_bit (b + 1) (by omega) (by omega)]
    exact congrArg stream (by omega)

/-- A completed character is added to those read. -/
theorem char_bit_append (h : m.HasRead stream old chars) {c : CharCode}
    (hc : ∀ b, b < 7 → c.getLsbD b = stream (7 * chars.length + b)) (q b : Nat) (hq : q < (chars ++ [c]).length)
    (hb : b < 7) : ((chars ++ [c]).getD q 0).getLsbD b = stream (7 * q + b) := by
  rw [List.length_append, List.length_singleton] at hq
  rcases Nat.lt_or_ge q chars.length with hold | hnew
  · rw [List.getD_append _ _ _ _ hold]
    exact h.char_bit q b hold hb
  · obtain rfl : q = chars.length := by omega
    rw [List.getD_append_right _ _ _ _ hnew, Nat.sub_self]
    exact hc b hb

/-- One bit of the stream (R131): held, or the last of a character. -/
theorem feedTextBit (h : m.HasRead stream old chars) :
    ∃ chars', (feedTextBit m (stream (7 * chars.length + m.tcnt))).HasRead stream old chars' := by
  obtain ⟨htcnt, hbits, _⟩ := feedTextBit_spec m (stream (7 * chars.length + m.tcnt)) h.tcnt_le
  have htreg := h.feedTextBit_treg
  have htext_full := feedTextBit_text_of_eq (m := m) (stream (7 * chars.length + m.tcnt))
  have htext_room := feedTextBit_text_of_ne (m := m) (stream (7 * chars.length + m.tcnt))
  generalize Machine.feedTextBit m (stream (7 * chars.length + m.tcnt)) = m' at htcnt hbits htreg htext_full htext_room ⊢
  by_cases hfull : m.tcnt = 6
  · have htext := htext_full hfull
    rw [htext, List.length_append, List.length_singleton] at hbits
    refine ⟨chars ++ [m'.treg], ?_, htcnt, h.char_bit_append fun b hb => ?_, fun b hb hheld => ?_⟩
    · rw [htext, h.text_eq, List.append_assoc]
    · rw [htreg b hb (by omega)]
      exact congrArg stream (by omega)
    · rw [List.length_append, List.length_singleton] at hheld ⊢
      rw [htreg b hb (by omega)]
      exact congrArg stream (by omega)
  · have htext := htext_room hfull
    rw [htext] at hbits
    refine ⟨chars, htext.trans h.text_eq, htcnt, h.char_bit, fun b hb hheld => ?_⟩
    rw [htreg b hb (by omega)]
    exact congrArg stream (by omega)

/-- As many bits of the stream as there are. -/
theorem foldl_feedTextBit (bits : List Bool) (h : m.HasRead stream old chars)
    (hstream : ∀ i (hi : i < bits.length), bits[i] = stream (7 * chars.length + m.tcnt + i)) :
    ∃ chars', (bits.foldl Machine.feedTextBit m).HasRead stream old chars' := by
  induction bits generalizing m chars with
  | nil => exact ⟨chars, h⟩
  | cons b bits ih =>
    obtain rfl : b = stream (7 * chars.length + m.tcnt) := hstream 0 (Nat.zero_lt_succ _)
    obtain ⟨chars', h'⟩ := h.feedTextBit
    obtain ⟨_, hbits, _⟩ := feedTextBit_spec m (stream (7 * chars.length + m.tcnt)) h.tcnt_le
    rw [h'.text_eq, h.text_eq, List.length_append, List.length_append] at hbits
    refine ih h' fun i hi => ?_
    have hnext := hstream (i + 1) (Nat.succ_lt_succ hi)
    rw [List.getElem_cons_succ] at hnext
    rw [hnext]
    exact congrArg stream (by omega)

end Message.HasRead

theorem payloadBits_getElem (p : Payload) (i : Nat) (hi : i < (payloadBits p).length) :
    (payloadBits p)[i] = p.getLsbD (19 - i) := by
  have hlist : payloadBits p = (List.range 20).map fun i => p.getLsbD (19 - i) := rfl
  simp only [hlist, List.getElem_map, List.getElem_range]

/-- After its held bits, the decoder's stream is the payload's bits, p[19] first (R69). -/
theorem textStream_payload (m : Message) (p : Payload) (i : Nat) :
    textStream m p (m.tcnt + i) = p.getLsbD (19 - i) := by
  rw [textStream, if_neg (Nat.not_lt.mpr (Nat.le_add_right _ _)), Nat.add_sub_cancel_left]

/-- TEXT_FEED reads the payload's stream. -/
theorem exists_feedText_hasRead (p : Payload) (m : Message) (h : m.tcnt ≤ 6) :
    ∃ chars, (feedText p m).HasRead (textStream m p) m.text chars := by
  refine (Message.HasRead.textStream_start h p).foldl_feedTextBit (payloadBits p) fun i hi => ?_
  rw [payloadBits_getElem, List.length_nil, Nat.mul_zero, Nat.zero_add, textStream_payload]

/-- TEXT_FEED writes the text decoder only. -/
theorem feedText_eq (p : Payload) (m : Message) (h : m.tcnt ≤ 6) :
    feedText p m =
      { m with text := (feedText p m).text, treg := (feedText p m).treg, tcnt := (feedText p m).tcnt } := by
  obtain ⟨_, _, hactive, haddress, hfunction, hnumeric⟩ := feedText_spec p m h
  rw [← hactive, ← haddress, ← hfunction, ← hnumeric]

/-- Settles O20: the decoder reads the 20 bits of the payload after those it holds, and cuts every seven. -/
theorem textFeedCutsSevenBitCharacters : Obligations.TextFeedCutsSevenBitCharacters := by
  intro p s hle
  obtain ⟨chars, hread⟩ := exists_feedText_hasRead p s.msg hle
  obtain ⟨htcnt, hbits, _⟩ := feedText_spec p s.msg hle
  rw [hread.text_eq, List.length_append] at hbits
  have hcount : (feedText p s.msg).tcnt = (s.msg.tcnt + 20) % 7 := by omega
  refine ⟨chars, (feedText p s.msg).treg, ?_, by omega, hread.char_bit, fun b hb => ?_⟩
  · rw [← hcount, ← hread.text_eq, ← feedText_eq p s.msg hle]
    rfl
  · have hindex : 7 * chars.length + (feedText p s.msg).tcnt + b - 7 = s.msg.tcnt + (13 + b) := by omega
    rw [hread.treg_bit b hb (by omega), hindex, textStream_payload, Nat.sub_add_eq]

end Sys2Proof.Machine
end

section
/-! The records that a step emits (family 42_message_assembler; R126, R140). Loss of sync and IDLE are what emits, each
under E and with a reset of the message. -/

namespace Sys2Proof.Machine

/-- From s to t the record of the message in s is emitted, under E, and the message is reset (R126, R127, R140). -/
structure State.Emits (s : State) (eom : Bool) (t : State) : Prop where
  emissible : emissible s.msg = true
  out_eq : t.out = s.out ++ [recordOf s eom]
  msg_eq : t.msg = (msgReset s).msg

/-- What stands before or after it may differ outside the message, the label and the output queue. -/
theorem State.Emits.congr {s s' t t' : State} {eom : Bool} (h : s'.Emits eom t') (hmsg : s'.msg = s.msg)
    (hcfg : s'.cfg = s.cfg) (hout : s'.out = s.out) (hmsg' : t.msg = t'.msg) (hout' : t.out = t'.out) :
    s.Emits eom t where
  emissible := hmsg ▸ h.emissible
  out_eq := by rw [hout', h.out_eq, hout, recordOf, recordOf, hmsg, hcfg]
  msg_eq := hmsg'.trans h.msg_eq

/-- Loss of sync emits nothing, or the partial message (R154, R155). -/
theorem loseSync_emission (e : Event) (s : State) :
    (loseSync e s).out = s.out ∨ s.Emits false (loseSync e s) := by
  rcases loseSync_cases e s with ⟨hE, heq⟩ | ⟨_, heq⟩ <;> rw [heq]
  · exact .inr ⟨hE, rfl, rfl⟩
  · exact .inl rfl

/-- A valid word emits nothing, or it is IDLE and ends an active message (R129, R140). -/
theorem classAction_emission (c : Word) (s : State) :
    (classAction c s).out = s.out ∨
      s.Emits true (classAction c s) ∧ c = Config.idleWord ∧ s.msg.active = true := by
  unfold classAction
  split
  · exact .inl rfl
  · unfold assemble
    split
    next hidle =>
      rcases idleWord_cases s with ⟨hactive, hE, heq⟩ | ⟨_, _, heq⟩ | ⟨_, heq⟩ <;> rw [heq]
      · exact .inr ⟨⟨hE, rfl, rfl⟩, hidle, hactive⟩
      · exact .inl rfl
      · exact .inl rfl
    next =>
      split
      · exact .inl (dataWord_out c s)
      · exact .inl rfl

theorem noteCorrection_msg (c w : Word) (s : State) : (noteCorrection c w s).msg = s.msg := by
  rcases noteCorrection_cases c w s with ⟨_, heq⟩ | ⟨_, heq⟩ <;> rw [heq]; rfl

theorem noteCorrection_out (c w : Word) (s : State) : (noteCorrection c w s).out = s.out := by
  rcases noteCorrection_cases c w s with ⟨_, heq⟩ | ⟨_, heq⟩ <;> rw [heq]; rfl

theorem noteCorrection_cfg (c w : Word) (s : State) : (noteCorrection c w s).cfg = s.cfg :=
  (State.KeepsSetup.noteCorrection c w s).cfg_eq

/-- A word of the batch emits nothing, or a partial message on loss of sync, or a whole one for IDLE. -/
theorem synchedWord_emission (w : Word) (s : State) :
    (synchedWord w s).out = s.out ∨
      (s.Emits false (synchedWord w s) ∧ (synchedWord w s).state = s.cfg.initialState ∧ (synchedWord w s).acc = 0) ∨
      (s.Emits true (synchedWord w s) ∧ Codec.correct w = Config.idleWord ∧ s.msg.active = true) := by
  cases hvalid : Codec.valid (Codec.correct w) with
  | false =>
    rw [synchedWord_of_not_valid hvalid, uncorrectableWord]
    exact (loseSync_emission _ s).imp_right fun h => .inl ⟨h, loseSync_state _ s, loseSync_acc _ s⟩
  | true =>
    rw [synchedWord_of_valid hvalid]
    generalize Codec.correct w = c
    rcases classAction_emission c (noteCorrection c w s) with hout | ⟨hemits, hidle, hactive⟩
    · exact .inl (hout.trans (noteCorrection_out c w s))
    · rw [noteCorrection_msg] at hactive
      have hnote := hemits.congr (noteCorrection_msg c w s) (noteCorrection_cfg c w s) (noteCorrection_out c w s) rfl rfl
      exact .inr (.inr ⟨hnote.congr rfl rfl rfl rfl rfl, hidle, hactive⟩)

/-- A step emits nothing, or a partial message on loss of sync, or a whole one for IDLE (R140). -/
theorem automatonStep_emission (s : State) :
    (automatonStep s).2.out = s.out ∨
      (s.Emits false (automatonStep s).2 ∧ (s.state = .sync ∨ s.state = .synched) ∧
        (automatonStep s).2.state = s.cfg.initialState ∧ (automatonStep s).2.acc = 0) ∨
      (s.Emits true (automatonStep s).2 ∧ s.state = .synched ∧ Codec.correct (nextWord s) = Config.idleWord ∧
        s.msg.active = true) := by
  rcases Nat.lt_or_ge s.input.length (stepLength s.state) with hshort | hfull
  · rw [automatonStep_short hshort]
    exact .inl rfl
  obtain ⟨x, rest, hin⟩ := List.exists_cons_of_length_pos ((stepLength_pos s.state).trans_le hfull)
  cases hs : s.state with
  | searchPreambleStart => rw [automatonStep_searchPreambleStart hs hin]; dsimp only; split <;> exact .inl rfl
  | searchPreambleEnd => rw [automatonStep_searchPreambleEnd hs hin]; dsimp only; split <;> exact .inl rfl
  | searchSync => rw [automatonStep_searchSync hs hin]; dsimp only; split <;> exact .inl rfl
  | sync =>
    rw [hs] at hfull
    rw [automatonStep_sync hs hfull]
    dsimp only
    split
    · exact .inl rfl
    · exact (loseSync_emission _ (consume 32 s)).imp_right fun h =>
        .inl ⟨h.congr rfl rfl rfl rfl rfl, .inl rfl, loseSync_state _ _, loseSync_acc _ _⟩
  | synched =>
    rw [hs] at hfull
    rw [automatonStep_synched hs hfull]
    dsimp only
    rcases synchedWord_emission (nextWord s) (consume 32 s) with hout | ⟨h, hlost⟩ | ⟨h, hidle⟩
    · exact .inl hout
    · exact .inr (.inl ⟨h.congr rfl rfl rfl rfl rfl, .inr rfl, hlost⟩)
    · exact .inr (.inr ⟨h.congr rfl rfl rfl rfl rfl, rfl, hidle⟩)

/-- Settles O42: only loss of sync and IDLE emit, and `end_of_message` tells which. -/
theorem aStepEmitsAtMostOneRecord : Obligations.AStepEmitsAtMostOneRecord := by
  intro s
  rcases automatonStep_emission s with hout | ⟨h, hlost⟩ | ⟨h, hidle⟩
  · exact .inl hout
  · exact .inr ⟨recordOf s false, h.out_eq, (emissible_iff s.msg).mp h.emissible, rfl, h.msg_eq, nofun, fun _ => hlost⟩
  · exact .inr ⟨recordOf s true, h.out_eq, (emissible_iff s.msg).mp h.emissible, rfl, h.msg_eq, fun _ => hidle, nofun⟩

end Sys2Proof.Machine
end

section
/-! The word classes and the assembler's operations, field by field (family 42_message_assembler). -/

namespace Sys2Proof.Machine

/-- Settles O16: the flag is set, then the event raised (R135). -/
theorem syncInBatchIsLoggedAndIgnored : Obligations.SyncInBatchIsLoggedAndIgnored := fun _ => rfl

theorem exec_idle (s : State) : exec .idle s = .next (answer .nothing (idleWord s)) := rfl

theorem idleWord_of_active {s : State} (h : s.msg.active = true) : idleWord s = msgReset (emitIfEmissible true s) :=
  if_pos h

theorem idleWord_of_not_active {s : State} (h : s.msg.active = false) :
    idleWord s = raiseEvent { kind := .idleNoMessage, info := .word Config.idleWord } s :=
  if_neg (Bool.eq_false_iff.mp h)

theorem emitIfEmissible_of_emissible {s : State} (eom : Bool) (h : emissible s.msg = true) :
    emitIfEmissible eom s = appendRecord (recordOf s eom) s := if_pos h

theorem emitIfEmissible_of_not_emissible {s : State} (eom : Bool) (h : emissible s.msg = false) :
    emitIfEmissible eom s = s := if_neg (Bool.eq_false_iff.mp h)

/-- Settles O17: the three cases of an active message with E, one without, and none. -/
theorem idleEndsTheActiveMessage : Obligations.IdleEndsTheActiveMessage := by
  intro s
  rw [exec_idle]
  refine ⟨fun hactive hE => ?_, fun hactive haddress htext => ?_, fun hinactive => ?_⟩
  · rw [idleWord_of_active hactive, emitIfEmissible_of_emissible true ((emissible_iff s.msg).mpr hE)]; rfl
  · rw [idleWord_of_active hactive, emitIfEmissible_of_not_emissible true (emissible_eq_false haddress htext)]; rfl
  · rw [idleWord_of_not_active hinactive]; rfl

theorem exec_data (c : Word) (s : State) : exec (.data c) s = .next (answer .nothing (dataWord c s)) := rfl

/-- Settles O18: TEXT_FEED of the payload, then NUMERIC_FEED of it. -/
theorem dataWordFeedsBothDecoders : Obligations.DataWordFeedsBothDecoders := by
  intro c s
  refine ⟨_, _, rfl, rfl, ?_⟩
  rw [exec_data, dataWord, payload]
  generalize feedText (c.extractLsb' 11 20) s.msg = m
  rfl

/-- The frame bits of a word index below 16 are its half, in the low three bits of the address (R67). -/
theorem fullAddress_eq (c : Word) {i : Nat} (hi : i < 16) :
    fullAddress c i = ((c.extractLsb' 13 18).setWidth 21 <<< 3) ||| BitVec.ofNat 21 (i / 2) := by
  apply BitVec.eq_of_toNat_eq
  have hfield := (addr18 c).isLt
  have hframe : (frame i).toNat = i / 2 := Nat.mod_eq_of_lt (by omega)
  rw [fullAddress, BitVec.toNat_append, hframe, ← addr18]
  simp only [BitVec.toNat_or, BitVec.toNat_shiftLeft, BitVec.toNat_setWidth, BitVec.toNat_ofNat, Nat.shiftLeft_eq]
  rw [Nat.mod_eq_of_lt (a := (addr18 c).toNat) (by omega), Nat.mod_eq_of_lt (a := _ * _) (by omega),
    Nat.mod_eq_of_lt (a := i / 2) (by omega)]

/-- Settles O19: the fields of the word, with the frame of its index. -/
theorem addressWordStartsAMessage : Obligations.AddressWordStartsAMessage := by
  intro c s hcount
  rw [← fullAddress_eq c hcount]
  rfl

/-- A payload is the number that its five nibbles write in base 16 (R70). -/
theorem toNat_eq_of_nibbles (p : Payload) :
    p.toNat = (p.extractLsb' 16 4).toNat * 16 ^ 4 + (p.extractLsb' 12 4).toNat * 16 ^ 3 +
      (p.extractLsb' 8 4).toNat * 16 ^ 2 + (p.extractLsb' 4 4).toNat * 16 + (p.extractLsb' 0 4).toNat := by
  have hp := p.isLt
  simp only [BitVec.extractLsb'_toNat, Nat.shiftRight_eq_div_pow]
  omega

/-- NUMERIC_TABLE has a character at each digit code (R139). -/
theorem numericTable_getElem? (d : DigitCode) : Config.numericTable[d.toNat]? = some (renderDigit d) := by
  have hd : d.toNat < Config.numericTable.length := d.isLt
  rw [renderDigit, List.getElem?_eq_getElem hd, List.getD_eq_getElem _ _ hd]

/-- Settles O21: the payload's five nibbles are appended as they are. -/
theorem numericFeedAppendsFiveNibbles : Obligations.NumericFeedAppendsFiveNibbles := fun p _ =>
  ⟨_, _, _, _, _, rfl, toNat_eq_of_nibbles p, numericTable_getElem?, List.map_append⟩

/-- Settles O22: the record of the message, appended to `out` and to the trace. -/
theorem emitAppendsOneRecord : Obligations.EmitAppendsOneRecord := by
  rintro eom s r rfl
  rfl

end Sys2Proof.Machine
end

section
/-! Loss of sync on an uncorrectable word, and independent instances (family 60_exceptions; R154, R163, R173). -/

namespace Sys2Proof.Machine

theorem exec_uncorrectable (w : Word) (s : State) :
    exec (.uncorrectable w) s = .next (answer .nothing (loseSync { kind := .uncorrectable, info := .word w } s)) := rfl

/-- Settles O15: loss of sync with the word as read, which emits when E holds. -/
theorem uncorrectableWordLosesSync : Obligations.UncorrectableWordLosesSync := by
  intro w s
  rw [exec_uncorrectable]
  refine ⟨fun hE => ?_, fun haddress htext => ?_⟩
  · rw [loseSync_of_emissible _ ((emissible_iff s.msg).mpr hE)]; rfl
  · rw [loseSync_of_not_emissible _ (emissible_eq_false haddress htext)]; rfl

/-! ## Instances -/

theorem runOnSlot_some (i : Instr) (s : State) : runOnSlot i (some s) = exec i s := rfl

theorem runOnSlot_none_reset (c : Construction) : runOnSlot (.reset c) none = exec (.reset c) State.reset := rfl

/-- At an absent slot RESET is the only legal operation (R173). -/
theorem runOnSlot_none_of_ne_reset {i : Instr} (h : ∀ c, i ≠ .reset c) : runOnSlot i none = .refused .noInstance := by
  cases i with
  | reset c => exact absurd rfl (h c)
  | _ => rfl

/-- RESET's refusal reads the configuration only (R170). -/
theorem exec_reset_refused {c : Construction} {r : Refusal} {s : State} (h : exec (.reset c) s = .refused r)
    (t : State) : exec (.reset c) t = .refused r := by
  change execReset c s = _ at h
  change execReset c t = _
  unfold execReset at h ⊢
  by_cases hstate : legalInitialState c.initialState = true
  · by_cases hlen : legalPreambleLen c.preambleLen = true
    · rw [if_pos hstate, if_pos hlen] at h; cases h
    · rwa [if_pos hstate, if_neg hlen] at h ⊢
  · rwa [if_neg hstate] at h ⊢

/-- A refused RESET is refused at every slot, absent or present. -/
theorem runOnSlot_reset_refused {c : Construction} {r : Refusal} (h : exec (.reset c) State.reset = .refused r)
    (slot : Option State) : runOnSlot (.reset c) slot = .refused r := by
  cases slot with
  | none => exact h
  | some s => exact exec_reset_refused h s

/-- A next bank differs from the old one by what was put at k. -/
theorem exists_putSlot_of_runInBank {k : Nat} {i : Instr} {b b' : Bank} (h : runInBank k i b = .next b') :
    ∃ t, b' = putSlot k t b := by
  rw [runInBank] at h
  split at h <;> cases h
  exact ⟨_, rfl⟩

/-- What an operation answers at its slot stands there in the next bank. -/
theorem exists_runInBank_next {k : Nat} {i : Instr} {b : Bank} {t : State}
    (h : runOnSlot i (b.getD k none) = .next t) :
    ∃ b' : Bank, runInBank k i b = .next b' ∧ b'.getD k none = some t :=
  ⟨putSlot k t b, runInBank_next h, Bank.getD_putSlot b k t⟩

/-- Settles O51: an operation reads and writes its own slot, and does there what it does outside a bank. -/
theorem instancesAreIndependent : Obligations.InstancesAreIndependent := by
  intro k i b
  refine ⟨fun s t hslot hexec => ?_, fun b' hrun j hj => ?_, fun hslot hi => ?_, fun c t hslot hexec => ?_,
    fun s r hslot hexec => ?_, fun c r hexec => runInBank_refused (runOnSlot_reset_refused hexec _)⟩
  · exact exists_runInBank_next (by rw [hslot, runOnSlot_some, hexec])
  · obtain ⟨t, rfl⟩ := exists_putSlot_of_runInBank hrun
    exact Bank.getD_putSlot_of_ne b t hj
  · exact runInBank_refused (by rw [hslot, runOnSlot_none_of_ne_reset hi])
  · exact exists_runInBank_next (by rw [hslot, runOnSlot_none_reset, hexec])
  · exact runInBank_refused (by rw [hslot, runOnSlot_some, hexec])

end Sys2Proof.Machine
end

section
/-! RESET and the work counts of a `Synched` step (family 70_reset_and_hazards; R170, R171, R180). -/

namespace Sys2Proof

namespace Codec

/-! ## The candidates of CORRECT -/

/-- 32 single flips and 496 double flips (R91). -/
theorem length_flips (w : Word) : (singleFlips w ++ doubleFlips w).length = 528 := by
  simp only [singleFlips, doubleFlips, List.length_append, List.length_map, List.length_range, List.length_flatMap,
    List.length_range']
  decide

/-- The search finds a valid word if a candidate is valid (R91). -/
theorem valid_correct_of_mem_flips {c w : Word} (hmem : c ∈ singleFlips w ++ doubleFlips w) (hc : valid c = true) :
    valid (correct w) = true := by
  unfold correct
  split
  next hw => exact hw
  next =>
    split
    next d hfound => exact List.find?_some hfound
    next hnone => exact absurd hc (List.find?_eq_none.mp hnone c hmem)

theorem not_valid_of_uncorrectable {w : Word} (h : uncorrectable w = true) : ¬ valid w = true := fun hw => by
  rw [uncorrectable_of_valid hw] at h
  cases h

/-- No candidate of an uncorrectable word is valid, so the search passes over all of them. -/
theorem findIdx_flips_of_uncorrectable {w : Word} (h : uncorrectable w = true) :
    (singleFlips w ++ doubleFlips w).findIdx valid = 528 := by
  rw [← length_flips w, List.findIdx_eq_length]
  intro c hmem
  refine Bool.eq_false_iff.mpr fun hc => ?_
  rw [uncorrectable_eq_not_valid, valid_correct_of_mem_flips hmem hc] at h
  cases h

end Codec

namespace Machine

/-! ## The work counts (R180) -/

theorem synchedEvaluations_of_valid {w : Word} (h : Codec.valid w = true) : synchedEvaluations w = 2 := by
  rw [synchedEvaluations, correctEvaluations, if_pos h]

/-- The word itself, each candidate up to the first valid one, and the re-check. -/
theorem synchedEvaluations_of_not_valid {w : Word} (h : ¬ Codec.valid w = true) :
    synchedEvaluations w =
      1 + min ((Codec.singleFlips w ++ Codec.doubleFlips w).findIdx Codec.valid + 1) 528 + 1 := by
  simp only [synchedEvaluations, correctEvaluations, if_neg h, Codec.length_flips]

theorem synchedEvaluations_of_uncorrectable {w : Word} (h : Codec.uncorrectable w = true) :
    synchedEvaluations w = 530 := by
  rw [synchedEvaluations_of_not_valid (Codec.not_valid_of_uncorrectable h), Codec.findIdx_flips_of_uncorrectable h]
  decide

theorem synchedEvaluations_le (w : Word) : synchedEvaluations w ≤ 530 := by
  by_cases hw : Codec.valid w = true
  · rw [synchedEvaluations_of_valid hw]
    decide
  · rw [synchedEvaluations_of_not_valid hw]
    omega

/-- Settles O52: a valid word is not searched for, and the search for an uncorrectable one tries all 528 candidates. -/
theorem codecCostIsBounded : Obligations.CodecCostIsBounded := by
  refine fun w => ⟨fun hvalid => ?_, fun hlost => ?_, synchedEvaluations_le w⟩
  · have hcost := synchedEvaluations_of_valid ((Codec.valid_iff w).mpr hvalid)
    exact ⟨hcost, by rw [synchedIterations, hcost]; rfl⟩
  · have hcost := synchedEvaluations_of_uncorrectable hlost
    exact ⟨hcost, by rw [synchedIterations, hcost]; rfl⟩

/-! ## RESET (R170, R171) -/

theorem exec_reset_of_illegal_state {c : Construction} (s : State) (hsearch : c.initialState ≠ .searchSync)
    (hpreamble : c.initialState ≠ .searchPreambleStart) :
    exec (.reset c) s = .refused .illegalInitialState := by
  change execReset c s = _
  rw [execReset, if_neg (mt (legalInitialState_iff _).mp (not_or.mpr ⟨hsearch, hpreamble⟩))]

/-- The length is looked at only after the initial state (R170). -/
theorem exec_reset_of_illegal_length {c : Construction} (s : State)
    (hstate : c.initialState = .searchSync ∨ c.initialState = .searchPreambleStart)
    (hlen : ¬ (2 ≤ c.preambleLen ∧ c.preambleLen ≤ 32)) :
    exec (.reset c) s = .refused .illegalPreambleLen := by
  change execReset c s = _
  rw [execReset, if_pos ((legalInitialState_iff _).mpr hstate), if_neg (mt (legalPreambleLen_iff _).mp hlen)]

/-- Settles O1: the construction, and a refusal for each of the two illegal parameters. -/
theorem resetConstructsOrRefuses : Obligations.ResetConstructsOrRefuses := fun _ s =>
  ⟨exec_reset_of_legal s, exec_reset_of_illegal_state s,
    fun hstate hlen => exec_reset_of_illegal_length s hstate (by omega)⟩

/-- Settles O2: the defaults are legal, and their construction is the reset state. -/
theorem resetStateIsTheDefaultConstruction : Obligations.ResetStateIsTheDefaultConstruction := fun s =>
  exec_reset_of_legal (c := Config.defaults) s (.inl rfl) (by decide) (by decide)

end Machine

end Sys2Proof
end

section
/-! A table word placed for fetching (the model's choice: log entries 1 and 3). -/

namespace Sys2Proof.Machine

/-- The table reader accepts a word exactly when the decoder accepts the request that placing the word leaves. -/
theorem decodeTableWord_eq_some_iff {nbits w : Nat} {i : Instr} :
    decodeTableWord nbits w = some i ↔ decode (tableRequest nbits w) = .ok i := by
  unfold decodeTableWord
  cases decode (tableRequest nbits w) with
  | ok j => simp only [Option.some.injEq, Except.ok.injEq]
  | error e => exact iff_of_false nofun nofun

theorem withFetchWord_placed (s : State) (nbits w : Nat) :
    (s.withFetchWord nbits w).placed = some (tableRequest nbits w) := rfl

/-- Taking the placed word off again leaves nothing of it: placing writes `placed` only. -/
theorem withFetchWord_unplaced (s : State) (nbits w : Nat) :
    { s.withFetchWord nbits w with placed := none } = { s with placed := none } := rfl

/-- Settles O39: a word that the table reader accepts is a placed request that decodes, and a placed request comes
first. -/
theorem fetchWordIsRunNext : Obligations.FetchWordIsRunNext := by
  intro s nbits w i hword
  have hrun : step (s.withFetchWord nbits w) = exec i { s.withFetchWord nbits w with placed := none } :=
    ((stepRunsTheNextAction _ []).2 _ (withFetchWord_placed s nbits w)).1 i (decodeTableWord_eq_some_iff.mp hword)
  rw [hrun, withFetchWord_unplaced]

end Sys2Proof.Machine
end
